-- ==== Sys2Proof/Word.lean ====
section
/-! DEFINITION. The word types (spec/00_scope.md, R6, R8, R9): every register value, address and ALU operand is a
32-bit word, and arithmetic on words wraps. -/

namespace Sys2Proof

/-- A 32-bit word: a register, an address, an ALU operand, an ARM instruction. -/
abbrev Word := BitVec 32

/-- A 16-bit halfword: a halfword of memory, a THUMB instruction. -/
abbrev Half := BitVec 16

/-- A byte of memory. -/
abbrev Byte := BitVec 8

/-- The number of a logical register, r0 to r15. -/
abbrev Reg := BitVec 4

/-- The number of one of r0 to r7, as the 3-bit fields of THUMB name them. -/
abbrev LowReg := BitVec 3

/-- A 4-bit condition code; code 15 is reserved and never passes (R142). -/
abbrev CondCode := BitVec 4

end Sys2Proof
end

