-- ==== Sys2Proof/Syntax.lean ====
section
/-! DEFINITION. The instructions: one constructor per row of spec/opcode_table.json, in the table's order
(112 ARM rows, then 81 THUMB rows, the THUMB ones with a name that begins with `t`).

The arguments of a constructor are the fields of its row, from the high bits to the low ones, and the bits the row
marks `x` (ignored, R118) as a field `ign`, so that no bit of a word is lost. A row named UNDEFINED carries the whole
word, because its report does (R462). -/

namespace Sys2Proof

/-- The four shift types of the barrel shifter (R106). -/
inductive ShiftType where
  | lsl | lsr | asr | ror
deriving DecidableEq, Repr

/-- An encoded instruction: one 32-bit word in ARM state, one 16-bit halfword in THUMB state (R100). -/
inductive Code where
  | arm (w : BitVec 32)
  | thumb (h : BitVec 16)
deriving DecidableEq, Repr

/-- The instructions of both sets. -/
inductive Instr where
  -- ARM data processing (A1 immediate, A2 register shifted by an immediate, A3 register shifted by a register)
  /-- A1 AND, immediate operand (R184). -/
  | andImm (c : CondCode) (sf : Bool) (rn rd : Reg) (rot : BitVec 4) (imm : BitVec 8)
  /-- A2 AND, register operand, shift by immediate (R184). -/
  | andReg (c : CondCode) (sf : Bool) (rn rd : Reg) (amt : BitVec 5) (ty : ShiftType) (rm : Reg)
  /-- A3 AND, register operand, shift by register (R184). -/
  | andRsr (c : CondCode) (sf : Bool) (rn rd rs : Reg) (ty : ShiftType) (rm : Reg)
  /-- A1 EOR, immediate operand (R185). -/
  | eorImm (c : CondCode) (sf : Bool) (rn rd : Reg) (rot : BitVec 4) (imm : BitVec 8)
  /-- A2 EOR, register operand, shift by immediate (R185). -/
  | eorReg (c : CondCode) (sf : Bool) (rn rd : Reg) (amt : BitVec 5) (ty : ShiftType) (rm : Reg)
  /-- A3 EOR, register operand, shift by register (R185). -/
  | eorRsr (c : CondCode) (sf : Bool) (rn rd rs : Reg) (ty : ShiftType) (rm : Reg)
  /-- A1 SUB, immediate operand (R186). -/
  | subImm (c : CondCode) (sf : Bool) (rn rd : Reg) (rot : BitVec 4) (imm : BitVec 8)
  /-- A2 SUB, register operand, shift by immediate (R186). -/
  | subReg (c : CondCode) (sf : Bool) (rn rd : Reg) (amt : BitVec 5) (ty : ShiftType) (rm : Reg)
  /-- A3 SUB, register operand, shift by register (R186). -/
  | subRsr (c : CondCode) (sf : Bool) (rn rd rs : Reg) (ty : ShiftType) (rm : Reg)
  /-- A1 RSB, immediate operand (R187). -/
  | rsbImm (c : CondCode) (sf : Bool) (rn rd : Reg) (rot : BitVec 4) (imm : BitVec 8)
  /-- A2 RSB, register operand, shift by immediate (R187). -/
  | rsbReg (c : CondCode) (sf : Bool) (rn rd : Reg) (amt : BitVec 5) (ty : ShiftType) (rm : Reg)
  /-- A3 RSB, register operand, shift by register (R187). -/
  | rsbRsr (c : CondCode) (sf : Bool) (rn rd rs : Reg) (ty : ShiftType) (rm : Reg)
  /-- A1 ADD, immediate operand (R188). -/
  | addImm (c : CondCode) (sf : Bool) (rn rd : Reg) (rot : BitVec 4) (imm : BitVec 8)
  /-- A2 ADD, register operand, shift by immediate (R188). -/
  | addReg (c : CondCode) (sf : Bool) (rn rd : Reg) (amt : BitVec 5) (ty : ShiftType) (rm : Reg)
  /-- A3 ADD, register operand, shift by register (R188). -/
  | addRsr (c : CondCode) (sf : Bool) (rn rd rs : Reg) (ty : ShiftType) (rm : Reg)
  /-- A1 ADC, immediate operand (R189). -/
  | adcImm (c : CondCode) (sf : Bool) (rn rd : Reg) (rot : BitVec 4) (imm : BitVec 8)
  /-- A2 ADC, register operand, shift by immediate (R189). -/
  | adcReg (c : CondCode) (sf : Bool) (rn rd : Reg) (amt : BitVec 5) (ty : ShiftType) (rm : Reg)
  /-- A3 ADC, register operand, shift by register (R189). -/
  | adcRsr (c : CondCode) (sf : Bool) (rn rd rs : Reg) (ty : ShiftType) (rm : Reg)
  /-- A1 SBC, immediate operand (R190). -/
  | sbcImm (c : CondCode) (sf : Bool) (rn rd : Reg) (rot : BitVec 4) (imm : BitVec 8)
  /-- A2 SBC, register operand, shift by immediate (R190). -/
  | sbcReg (c : CondCode) (sf : Bool) (rn rd : Reg) (amt : BitVec 5) (ty : ShiftType) (rm : Reg)
  /-- A3 SBC, register operand, shift by register (R190). -/
  | sbcRsr (c : CondCode) (sf : Bool) (rn rd rs : Reg) (ty : ShiftType) (rm : Reg)
  /-- A1 RSC, immediate operand (R191). -/
  | rscImm (c : CondCode) (sf : Bool) (rn rd : Reg) (rot : BitVec 4) (imm : BitVec 8)
  /-- A2 RSC, register operand, shift by immediate (R191). -/
  | rscReg (c : CondCode) (sf : Bool) (rn rd : Reg) (amt : BitVec 5) (ty : ShiftType) (rm : Reg)
  /-- A3 RSC, register operand, shift by register (R191). -/
  | rscRsr (c : CondCode) (sf : Bool) (rn rd rs : Reg) (ty : ShiftType) (rm : Reg)
  /-- A1 TST, immediate operand (R192). -/
  | tstImm (c : CondCode) (rn : Reg) (ign rot : BitVec 4) (imm : BitVec 8)
  /-- A2 TST, register operand, shift by immediate (R192). -/
  | tstReg (c : CondCode) (rn : Reg) (ign : BitVec 4) (amt : BitVec 5) (ty : ShiftType) (rm : Reg)
  /-- A3 TST, register operand, shift by register (R192). -/
  | tstRsr (c : CondCode) (rn : Reg) (ign : BitVec 4) (rs : Reg) (ty : ShiftType) (rm : Reg)
  /-- A1 TEQ, immediate operand (R193). -/
  | teqImm (c : CondCode) (rn : Reg) (ign rot : BitVec 4) (imm : BitVec 8)
  /-- A2 TEQ, register operand, shift by immediate (R193). -/
  | teqReg (c : CondCode) (rn : Reg) (ign : BitVec 4) (amt : BitVec 5) (ty : ShiftType) (rm : Reg)
  /-- A3 TEQ, register operand, shift by register (R193). -/
  | teqRsr (c : CondCode) (rn : Reg) (ign : BitVec 4) (rs : Reg) (ty : ShiftType) (rm : Reg)
  /-- A1 CMP, immediate operand (R194). -/
  | cmpImm (c : CondCode) (rn : Reg) (ign rot : BitVec 4) (imm : BitVec 8)
  /-- A2 CMP, register operand, shift by immediate (R194). -/
  | cmpReg (c : CondCode) (rn : Reg) (ign : BitVec 4) (amt : BitVec 5) (ty : ShiftType) (rm : Reg)
  /-- A3 CMP, register operand, shift by register (R194). -/
  | cmpRsr (c : CondCode) (rn : Reg) (ign : BitVec 4) (rs : Reg) (ty : ShiftType) (rm : Reg)
  /-- A1 CMN, immediate operand (R195). -/
  | cmnImm (c : CondCode) (rn : Reg) (ign rot : BitVec 4) (imm : BitVec 8)
  /-- A2 CMN, register operand, shift by immediate (R195). -/
  | cmnReg (c : CondCode) (rn : Reg) (ign : BitVec 4) (amt : BitVec 5) (ty : ShiftType) (rm : Reg)
  /-- A3 CMN, register operand, shift by register (R195). -/
  | cmnRsr (c : CondCode) (rn : Reg) (ign : BitVec 4) (rs : Reg) (ty : ShiftType) (rm : Reg)
  /-- A1 ORR, immediate operand (R196). -/
  | orrImm (c : CondCode) (sf : Bool) (rn rd : Reg) (rot : BitVec 4) (imm : BitVec 8)
  /-- A2 ORR, register operand, shift by immediate (R196). -/
  | orrReg (c : CondCode) (sf : Bool) (rn rd : Reg) (amt : BitVec 5) (ty : ShiftType) (rm : Reg)
  /-- A3 ORR, register operand, shift by register (R196). -/
  | orrRsr (c : CondCode) (sf : Bool) (rn rd rs : Reg) (ty : ShiftType) (rm : Reg)
  /-- A1 MOV, immediate operand (R197). -/
  | movImm (c : CondCode) (sf : Bool) (ign : BitVec 4) (rd : Reg) (rot : BitVec 4) (imm : BitVec 8)
  /-- A2 MOV, register operand, shift by immediate (R197). -/
  | movReg (c : CondCode) (sf : Bool) (ign : BitVec 4) (rd : Reg) (amt : BitVec 5) (ty : ShiftType) (rm : Reg)
  /-- A3 MOV, register operand, shift by register (R197). -/
  | movRsr (c : CondCode) (sf : Bool) (ign : BitVec 4) (rd rs : Reg) (ty : ShiftType) (rm : Reg)
  /-- A1 BIC, immediate operand (R198). -/
  | bicImm (c : CondCode) (sf : Bool) (rn rd : Reg) (rot : BitVec 4) (imm : BitVec 8)
  /-- A2 BIC, register operand, shift by immediate (R198). -/
  | bicReg (c : CondCode) (sf : Bool) (rn rd : Reg) (amt : BitVec 5) (ty : ShiftType) (rm : Reg)
  /-- A3 BIC, register operand, shift by register (R198). -/
  | bicRsr (c : CondCode) (sf : Bool) (rn rd rs : Reg) (ty : ShiftType) (rm : Reg)
  /-- A1 MVN, immediate operand (R199). -/
  | mvnImm (c : CondCode) (sf : Bool) (ign : BitVec 4) (rd : Reg) (rot : BitVec 4) (imm : BitVec 8)
  /-- A2 MVN, register operand, shift by immediate (R199). -/
  | mvnReg (c : CondCode) (sf : Bool) (ign : BitVec 4) (rd : Reg) (amt : BitVec 5) (ty : ShiftType) (rm : Reg)
  /-- A3 MVN, register operand, shift by register (R199). -/
  | mvnRsr (c : CondCode) (sf : Bool) (ign : BitVec 4) (rd rs : Reg) (ty : ShiftType) (rm : Reg)
  -- ARM PSR transfer and branch and exchange
  /-- A4 MRS (R200). -/
  | mrs (c : CondCode) (p : Bool) (rd : Reg)
  /-- A5 MSR, register operand (R202). -/
  | msrReg (c : CondCode) (p ff : Bool) (ign : BitVec 2) (fc : Bool) (rm : Reg)
  /-- A6 MSR, immediate operand (R203). -/
  | msrImm (c : CondCode) (p ff : Bool) (ign : BitVec 2) (fc : Bool) (rot : BitVec 4) (imm : BitVec 8)
  /-- A7 BX (R298). -/
  | bx (c : CondCode) (rm : Reg)
  -- ARM multiply, multiply long, swap
  /-- A8 MUL (R230). -/
  | mul (c : CondCode) (sf : Bool) (rd : Reg) (ign : BitVec 4) (rs rm : Reg)
  /-- A8 MLA (R231). -/
  | mla (c : CondCode) (sf : Bool) (rd rn rs rm : Reg)
  /-- A9 UMULL (R232). -/
  | umull (c : CondCode) (sf : Bool) (rdHi rdLo rs rm : Reg)
  /-- A9 UMLAL (R233). -/
  | umlal (c : CondCode) (sf : Bool) (rdHi rdLo rs rm : Reg)
  /-- A9 SMULL (R234). -/
  | smull (c : CondCode) (sf : Bool) (rdHi rdLo rs rm : Reg)
  /-- A9 SMLAL (R235). -/
  | smlal (c : CondCode) (sf : Bool) (rdHi rdLo rs rm : Reg)
  /-- A10 SWP (R236). -/
  | swp (c : CondCode) (rn rd : Reg) (ign : BitVec 4) (rm : Reg)
  /-- A10 SWPB (R237). -/
  | swpb (c : CondCode) (rn rd : Reg) (ign : BitVec 4) (rm : Reg)
  -- ARM halfword and signed transfer
  /-- A11 STRH, register offset, pre-indexed (R268). -/
  | strhRegPre (c : CondCode) (u w : Bool) (rn rd : Reg) (ign : BitVec 4) (rm : Reg)
  /-- A11 STRH, register offset, post-indexed (R268). -/
  | strhRegPost (c : CondCode) (u : Bool) (rn rd : Reg) (ign : BitVec 4) (rm : Reg)
  /-- A12 STRH, immediate offset, pre-indexed (R268). -/
  | strhImmPre (c : CondCode) (u w : Bool) (rn rd : Reg) (hi lo : BitVec 4)
  /-- A12 STRH, immediate offset, post-indexed (R268). -/
  | strhImmPost (c : CondCode) (u : Bool) (rn rd : Reg) (hi lo : BitVec 4)
  /-- A11 LDRH, register offset, pre-indexed (R265). -/
  | ldrhRegPre (c : CondCode) (u w : Bool) (rn rd : Reg) (ign : BitVec 4) (rm : Reg)
  /-- A11 LDRH, register offset, post-indexed (R265). -/
  | ldrhRegPost (c : CondCode) (u : Bool) (rn rd : Reg) (ign : BitVec 4) (rm : Reg)
  /-- A12 LDRH, immediate offset, pre-indexed (R265). -/
  | ldrhImmPre (c : CondCode) (u w : Bool) (rn rd : Reg) (hi lo : BitVec 4)
  /-- A12 LDRH, immediate offset, post-indexed (R265). -/
  | ldrhImmPost (c : CondCode) (u : Bool) (rn rd : Reg) (hi lo : BitVec 4)
  /-- A11 LDRSB, register offset, pre-indexed (R266). -/
  | ldrsbRegPre (c : CondCode) (u w : Bool) (rn rd : Reg) (ign : BitVec 4) (rm : Reg)
  /-- A11 LDRSB, register offset, post-indexed (R266). -/
  | ldrsbRegPost (c : CondCode) (u : Bool) (rn rd : Reg) (ign : BitVec 4) (rm : Reg)
  /-- A12 LDRSB, immediate offset, pre-indexed (R266). -/
  | ldrsbImmPre (c : CondCode) (u w : Bool) (rn rd : Reg) (hi lo : BitVec 4)
  /-- A12 LDRSB, immediate offset, post-indexed (R266). -/
  | ldrsbImmPost (c : CondCode) (u : Bool) (rn rd : Reg) (hi lo : BitVec 4)
  /-- A11 LDRSH, register offset, pre-indexed (R267). -/
  | ldrshRegPre (c : CondCode) (u w : Bool) (rn rd : Reg) (ign : BitVec 4) (rm : Reg)
  /-- A11 LDRSH, register offset, post-indexed (R267). -/
  | ldrshRegPost (c : CondCode) (u : Bool) (rn rd : Reg) (ign : BitVec 4) (rm : Reg)
  /-- A12 LDRSH, immediate offset, pre-indexed (R267). -/
  | ldrshImmPre (c : CondCode) (u w : Bool) (rn rd : Reg) (hi lo : BitVec 4)
  /-- A12 LDRSH, immediate offset, post-indexed (R267). -/
  | ldrshImmPost (c : CondCode) (u : Bool) (rn rd : Reg) (hi lo : BitVec 4)
  -- ARM single data transfer
  /-- A13 LDR, immediate offset, pre-indexed (R252). -/
  | ldrImmPre (c : CondCode) (u w : Bool) (rn rd : Reg) (off : BitVec 12)
  /-- A13 LDR, immediate offset, post-indexed (R252). -/
  | ldrImmPost (c : CondCode) (u : Bool) (rn rd : Reg) (off : BitVec 12)
  /-- A13 LDRT, immediate offset, post-indexed, forced user (rule R258) (R259). -/
  | ldrtImm (c : CondCode) (u : Bool) (rn rd : Reg) (off : BitVec 12)
  /-- A13 LDR, register offset, pre-indexed (R252). -/
  | ldrRegPre (c : CondCode) (u w : Bool) (rn rd : Reg) (amt : BitVec 5) (ty : ShiftType) (rm : Reg)
  /-- A13 LDR, register offset, post-indexed (R252). -/
  | ldrRegPost (c : CondCode) (u : Bool) (rn rd : Reg) (amt : BitVec 5) (ty : ShiftType) (rm : Reg)
  /-- A13 LDRT, register offset, post-indexed, forced user (rule R258) (R259). -/
  | ldrtReg (c : CondCode) (u : Bool) (rn rd : Reg) (amt : BitVec 5) (ty : ShiftType) (rm : Reg)
  /-- A13 LDRB, immediate offset, pre-indexed (R253). -/
  | ldrbImmPre (c : CondCode) (u w : Bool) (rn rd : Reg) (off : BitVec 12)
  /-- A13 LDRB, immediate offset, post-indexed (R253). -/
  | ldrbImmPost (c : CondCode) (u : Bool) (rn rd : Reg) (off : BitVec 12)
  /-- A13 LDRBT, immediate offset, post-indexed, forced user (rule R258) (R260). -/
  | ldrbtImm (c : CondCode) (u : Bool) (rn rd : Reg) (off : BitVec 12)
  /-- A13 LDRB, register offset, pre-indexed (R253). -/
  | ldrbRegPre (c : CondCode) (u w : Bool) (rn rd : Reg) (amt : BitVec 5) (ty : ShiftType) (rm : Reg)
  /-- A13 LDRB, register offset, post-indexed (R253). -/
  | ldrbRegPost (c : CondCode) (u : Bool) (rn rd : Reg) (amt : BitVec 5) (ty : ShiftType) (rm : Reg)
  /-- A13 LDRBT, register offset, post-indexed, forced user (rule R258) (R260). -/
  | ldrbtReg (c : CondCode) (u : Bool) (rn rd : Reg) (amt : BitVec 5) (ty : ShiftType) (rm : Reg)
  /-- A13 STR, immediate offset, pre-indexed (R254). -/
  | strImmPre (c : CondCode) (u w : Bool) (rn rd : Reg) (off : BitVec 12)
  /-- A13 STR, immediate offset, post-indexed (R254). -/
  | strImmPost (c : CondCode) (u : Bool) (rn rd : Reg) (off : BitVec 12)
  /-- A13 STRT, immediate offset, post-indexed, forced user (rule R258) (R261). -/
  | strtImm (c : CondCode) (u : Bool) (rn rd : Reg) (off : BitVec 12)
  /-- A13 STR, register offset, pre-indexed (R254). -/
  | strRegPre (c : CondCode) (u w : Bool) (rn rd : Reg) (amt : BitVec 5) (ty : ShiftType) (rm : Reg)
  /-- A13 STR, register offset, post-indexed (R254). -/
  | strRegPost (c : CondCode) (u : Bool) (rn rd : Reg) (amt : BitVec 5) (ty : ShiftType) (rm : Reg)
  /-- A13 STRT, register offset, post-indexed, forced user (rule R258) (R261). -/
  | strtReg (c : CondCode) (u : Bool) (rn rd : Reg) (amt : BitVec 5) (ty : ShiftType) (rm : Reg)
  /-- A13 STRB, immediate offset, pre-indexed (R255). -/
  | strbImmPre (c : CondCode) (u w : Bool) (rn rd : Reg) (off : BitVec 12)
  /-- A13 STRB, immediate offset, post-indexed (R255). -/
  | strbImmPost (c : CondCode) (u : Bool) (rn rd : Reg) (off : BitVec 12)
  /-- A13 STRBT, immediate offset, post-indexed, forced user (rule R258) (R262). -/
  | strbtImm (c : CondCode) (u : Bool) (rn rd : Reg) (off : BitVec 12)
  /-- A13 STRB, register offset, pre-indexed (R255). -/
  | strbRegPre (c : CondCode) (u w : Bool) (rn rd : Reg) (amt : BitVec 5) (ty : ShiftType) (rm : Reg)
  /-- A13 STRB, register offset, post-indexed (R255). -/
  | strbRegPost (c : CondCode) (u : Bool) (rn rd : Reg) (amt : BitVec 5) (ty : ShiftType) (rm : Reg)
  /-- A13 STRBT, register offset, post-indexed, forced user (rule R258) (R262). -/
  | strbtReg (c : CondCode) (u : Bool) (rn rd : Reg) (amt : BitVec 5) (ty : ShiftType) (rm : Reg)
  -- ARM block transfer, branches, software interrupt
  /-- A14 LDM (R291). -/
  | ldm (c : CondCode) (p u ub w : Bool) (rn : Reg) (list : BitVec 16)
  /-- A14 STM (R292). -/
  | stm (c : CondCode) (p u ub w : Bool) (rn : Reg) (list : BitVec 16)
  /-- A15 B (R296). -/
  | b (c : CondCode) (off : BitVec 24)
  /-- A15 BL (R297). -/
  | bl (c : CondCode) (off : BitVec 24)
  /-- A16 SWI (R300). -/
  | swi (c : CondCode) (comment : BitVec 24)
  -- ARM words that report Undefined (tier 2 of the table, R117)
  /-- A8-A12 UNDEFINED, kind decode: any word of the multiply, swap and halfword space (bits 7 and 4 set) that matches no tier-1 row (R303). -/
  | undMulSpace (w : BitVec 32)
  /-- A4-A7 UNDEFINED, kind decode: test opcode without S, bit 4 clear, that is not MRS or MSR (R303). -/
  | undTestReg (w : BitVec 32)
  /-- A4-A7 UNDEFINED, kind decode: test opcode without S, bit 7 clear and bit 4 set, that is not BX (R303). -/
  | undTestRsr (w : BitVec 32)
  /-- A6 UNDEFINED, kind decode: immediate test opcode without S that is not MSR immediate (R303). -/
  | undTestImm (w : BitVec 32)
  /-- No format: UNDEFINED, kind decode: architecturally undefined space (R303). -/
  | undClass011 (w : BitVec 32)
  /-- A17 UNDEFINED, kind trap: coprocessor data transfer (R302). -/
  | undCopTransfer (w : BitVec 32)
  /-- A18 UNDEFINED, kind trap: coprocessor operation and register transfer (R302). -/
  | undCopOp (w : BitVec 32)
  -- THUMB
  /-- T1 LSL (R330). -/
  | tLslImm (amt : BitVec 5) (rs rd : LowReg)
  /-- T1 LSR (R331). -/
  | tLsrImm (amt : BitVec 5) (rs rd : LowReg)
  /-- T1 ASR (R332). -/
  | tAsrImm (amt : BitVec 5) (rs rd : LowReg)
  /-- T2 ADD, register (R333). -/
  | tAddReg (rn rs rd : LowReg)
  /-- T2 SUB, register (R334). -/
  | tSubReg (rn rs rd : LowReg)
  /-- T2 ADD, 3-bit immediate (R335). -/
  | tAddImm3 (imm : BitVec 3) (rs rd : LowReg)
  /-- T2 SUB, 3-bit immediate (R336). -/
  | tSubImm3 (imm : BitVec 3) (rs rd : LowReg)
  /-- T3 MOV, 8-bit immediate (R337). -/
  | tMovImm8 (rd : LowReg) (imm : BitVec 8)
  /-- T3 CMP, 8-bit immediate (R338). -/
  | tCmpImm8 (rd : LowReg) (imm : BitVec 8)
  /-- T3 ADD, 8-bit immediate (R339). -/
  | tAddImm8 (rd : LowReg) (imm : BitVec 8)
  /-- T3 SUB, 8-bit immediate (R340). -/
  | tSubImm8 (rd : LowReg) (imm : BitVec 8)
  /-- T4 AND, ALU register form (R345). -/
  | tAnd (rs rd : LowReg)
  /-- T4 EOR, ALU register form (R346). -/
  | tEor (rs rd : LowReg)
  /-- T4 LSL, ALU register form (R347). -/
  | tLslReg (rs rd : LowReg)
  /-- T4 LSR, ALU register form (R348). -/
  | tLsrReg (rs rd : LowReg)
  /-- T4 ASR, ALU register form (R349). -/
  | tAsrReg (rs rd : LowReg)
  /-- T4 ADC, ALU register form (R350). -/
  | tAdc (rs rd : LowReg)
  /-- T4 SBC, ALU register form (R351). -/
  | tSbc (rs rd : LowReg)
  /-- T4 ROR, ALU register form (R352). -/
  | tRorReg (rs rd : LowReg)
  /-- T4 TST, ALU register form (R353). -/
  | tTst (rs rd : LowReg)
  /-- T4 NEG, ALU register form (R354). -/
  | tNeg (rs rd : LowReg)
  /-- T4 CMP, ALU register form (R355). -/
  | tCmp (rs rd : LowReg)
  /-- T4 CMN, ALU register form (R356). -/
  | tCmn (rs rd : LowReg)
  /-- T4 ORR, ALU register form (R357). -/
  | tOrr (rs rd : LowReg)
  /-- T4 MUL, ALU register form (R358). -/
  | tMul (rs rd : LowReg)
  /-- T4 BIC, ALU register form (R359). -/
  | tBic (rs rd : LowReg)
  /-- T4 MVN, ALU register form (R360). -/
  | tMvn (rs rd : LowReg)
  /-- T5 ADD, high-register form (R361). -/
  | tAddHi (h1 h2 : Bool) (rs rd : LowReg)
  /-- T5 CMP, high-register form (R362). -/
  | tCmpHi (h1 h2 : Bool) (rs rd : LowReg)
  /-- T5 MOV, high-register form (R363). -/
  | tMovHi (h1 h2 : Bool) (rs rd : LowReg)
  /-- T5 BX, H1 and bits 2:0 ignored (R364). -/
  | tBx (ignH h2 : Bool) (rs : LowReg) (ign : BitVec 3)
  /-- T6 LDR, PC-relative (R390). -/
  | tLdrPc (rd : LowReg) (off : BitVec 8)
  /-- T7 STR, register offset (R391). -/
  | tStrReg (ro rb rd : LowReg)
  /-- T8 STRH, register offset (R395). -/
  | tStrhReg (ro rb rd : LowReg)
  /-- T7 STRB, register offset (R392). -/
  | tStrbReg (ro rb rd : LowReg)
  /-- T8 LDSB, register offset (R396). -/
  | tLdsbReg (ro rb rd : LowReg)
  /-- T7 LDR, register offset (R393). -/
  | tLdrReg (ro rb rd : LowReg)
  /-- T8 LDRH, register offset (R397). -/
  | tLdrhReg (ro rb rd : LowReg)
  /-- T7 LDRB, register offset (R394). -/
  | tLdrbReg (ro rb rd : LowReg)
  /-- T8 LDSH, register offset (R398). -/
  | tLdshReg (ro rb rd : LowReg)
  /-- T9 STR, immediate offset (R399). -/
  | tStrImm (off : BitVec 5) (rb rd : LowReg)
  /-- T9 LDR, immediate offset (R400). -/
  | tLdrImm (off : BitVec 5) (rb rd : LowReg)
  /-- T9 STRB, immediate offset (R401). -/
  | tStrbImm (off : BitVec 5) (rb rd : LowReg)
  /-- T9 LDRB, immediate offset (R402). -/
  | tLdrbImm (off : BitVec 5) (rb rd : LowReg)
  /-- T10 STRH, immediate offset (R403). -/
  | tStrhImm (off : BitVec 5) (rb rd : LowReg)
  /-- T10 LDRH, immediate offset (R404). -/
  | tLdrhImm (off : BitVec 5) (rb rd : LowReg)
  /-- T11 STR, SP-relative (R405). -/
  | tStrSp (rd : LowReg) (off : BitVec 8)
  /-- T11 LDR, SP-relative (R406). -/
  | tLdrSp (rd : LowReg) (off : BitVec 8)
  /-- T12 ADD, Rd = PC + imm (R365). -/
  | tAddPc (rd : LowReg) (off : BitVec 8)
  /-- T12 ADD, Rd = SP + imm (R366). -/
  | tAddSp (rd : LowReg) (off : BitVec 8)
  /-- T13 ADD, SP = SP + imm (R367). -/
  | tSpPlus (off : BitVec 7)
  /-- T13 ADD, SP = SP - imm (R368). -/
  | tSpMinus (off : BitVec 7)
  /-- T14 PUSH (R410). -/
  | tPush (r : Bool) (list : BitVec 8)
  /-- T14 POP (R411). -/
  | tPop (r : Bool) (list : BitVec 8)
  /-- T15 STMIA (R412). -/
  | tStmia (rb : LowReg) (list : BitVec 8)
  /-- T15 LDMIA (R413). -/
  | tLdmia (rb : LowReg) (list : BitVec 8)
  -- THUMB branches, software interrupt, undefined halfwords
  /-- T16 BEQ, conditional branch, cond = 0 (R440). -/
  | tBeq (off : BitVec 8)
  /-- T16 BNE, conditional branch, cond = 1 (R440). -/
  | tBne (off : BitVec 8)
  /-- T16 BCS, conditional branch, cond = 2 (R440). -/
  | tBcs (off : BitVec 8)
  /-- T16 BCC, conditional branch, cond = 3 (R440). -/
  | tBcc (off : BitVec 8)
  /-- T16 BMI, conditional branch, cond = 4 (R440). -/
  | tBmi (off : BitVec 8)
  /-- T16 BPL, conditional branch, cond = 5 (R440). -/
  | tBpl (off : BitVec 8)
  /-- T16 BVS, conditional branch, cond = 6 (R440). -/
  | tBvs (off : BitVec 8)
  /-- T16 BVC, conditional branch, cond = 7 (R440). -/
  | tBvc (off : BitVec 8)
  /-- T16 BHI, conditional branch, cond = 8 (R440). -/
  | tBhi (off : BitVec 8)
  /-- T16 BLS, conditional branch, cond = 9 (R440). -/
  | tBls (off : BitVec 8)
  /-- T16 BGE, conditional branch, cond = 10 (R440). -/
  | tBge (off : BitVec 8)
  /-- T16 BLT, conditional branch, cond = 11 (R440). -/
  | tBlt (off : BitVec 8)
  /-- T16 BGT, conditional branch, cond = 12 (R440). -/
  | tBgt (off : BitVec 8)
  /-- T16 BLE, conditional branch, cond = 13 (R440). -/
  | tBle (off : BitVec 8)
  /-- T16 UNDEFINED, kind trap: conditional branch with condition 14 (R441). -/
  | tUndCond14 (w : BitVec 16)
  /-- T17 SWI (R442). -/
  | tSwi (comment : BitVec 8)
  /-- T18 B (R443). -/
  | tB (off : BitVec 11)
  /-- T19 BL, first half, H = 0 (R446). -/
  | tBlHigh (off : BitVec 11)
  /-- T19 BL, second half, H = 1 (R447). -/
  | tBlLow (off : BitVec 11)
  /-- No format: UNDEFINED, kind decode: unallocated (R448). -/
  | tUndB1 (w : BitVec 16)
  /-- No format: UNDEFINED, kind decode: unallocated (R448). -/
  | tUndB2 (w : BitVec 16)
  /-- No format: UNDEFINED, kind decode: unallocated (R448). -/
  | tUndB6 (w : BitVec 16)
  /-- No format: UNDEFINED, kind decode: unallocated (R448). -/
  | tUndB8 (w : BitVec 16)
  /-- No format: UNDEFINED, kind decode: unallocated (R448). -/
  | tUndBe (w : BitVec 16)
  /-- No format: UNDEFINED, kind decode: unallocated (R448). -/
  | tUndE8 (w : BitVec 16)
deriving DecidableEq, Repr

end Sys2Proof
end

