-- ==== Sys2Proof/WellFormed.lean ====
section
/-! DEFINITION. Which instructions are well formed.

Every field of every instruction row admits every value of its width, so an instruction row is always well formed.
A constructor of an UNDEFINED row carries a whole word, and is well formed when the word is one that row reports: it
matches the row's pattern and no instruction row (R116, R117). For the four rows that overlap instruction rows, what
remains is written out as the leaves L1 to L8 of R117. -/

namespace Sys2Proof

/-- A word matches a row of the opcode table (R116). -/
def matchesRow {n : Nat} (w mask pattern : BitVec n) : Bool := decide (w &&& mask = pattern)

/-- The undefined words of the multiply, swap and halfword space: leaves L1 to L5 of R117. -/
def undefinedMulSpace (w : Word) : Bool :=
  matchesRow w 0x0FC000F0#32 0x00400090#32 ||
  matchesRow w 0x0F8000F0#32 0x01800090#32 ||
  (matchesRow w 0x0F8000F0#32 0x01000090#32 && !matchesRow w 0x00300000#32 0#32) ||
  (matchesRow w 0x0F200090#32 0x00200090#32 && !matchesRow w 0x00000060#32 0#32) ||
  matchesRow w 0x0E1000D0#32 0x000000D0#32

/-- The undefined words of leaf L6 of R117 with bit 4 clear: a test opcode without S that is neither MRS nor MSR. -/
def undefinedTestReg (w : Word) : Bool :=
  matchesRow w 0x0F900010#32 0x01000000#32 &&
  !matchesRow w 0x0FBF0FFF#32 0x010F0000#32 && !matchesRow w 0x0FB0FFF0#32 0x0120F000#32

/-- The undefined words of leaf L6 of R117 with bit 7 clear and bit 4 set: a test opcode without S that is not BX. -/
def undefinedTestRsr (w : Word) : Bool :=
  matchesRow w 0x0F900090#32 0x01000010#32 && !matchesRow w 0x0FFFFFF0#32 0x012FFF10#32

/-- The undefined words of leaves L7 and L8 of R117: an immediate test opcode without S that is not MSR. -/
def undefinedTestImm (w : Word) : Bool :=
  matchesRow w 0x0F900000#32 0x03000000#32 && !matchesRow w 0x0FB0F000#32 0x0320F000#32

/-- The well-formedness check, one case per constructor. -/
def Instr.wellFormed : Instr → Bool
  | .andImm .. | .andReg .. | .andRsr .. | .eorImm .. | .eorReg .. | .eorRsr ..
  | .subImm .. | .subReg .. | .subRsr .. | .rsbImm .. | .rsbReg .. | .rsbRsr ..
  | .addImm .. | .addReg .. | .addRsr .. | .adcImm .. | .adcReg .. | .adcRsr ..
  | .sbcImm .. | .sbcReg .. | .sbcRsr .. | .rscImm .. | .rscReg .. | .rscRsr ..
  | .tstImm .. | .tstReg .. | .tstRsr .. | .teqImm .. | .teqReg .. | .teqRsr ..
  | .cmpImm .. | .cmpReg .. | .cmpRsr .. | .cmnImm .. | .cmnReg .. | .cmnRsr ..
  | .orrImm .. | .orrReg .. | .orrRsr .. | .movImm .. | .movReg .. | .movRsr ..
  | .bicImm .. | .bicReg .. | .bicRsr .. | .mvnImm .. | .mvnReg .. | .mvnRsr ..
  | .mrs .. | .msrReg .. | .msrImm .. | .bx .. | .mul .. | .mla ..
  | .umull .. | .umlal .. | .smull .. | .smlal .. | .swp .. | .swpb ..
  | .strhRegPre .. | .strhRegPost .. | .strhImmPre .. | .strhImmPost .. | .ldrhRegPre .. | .ldrhRegPost ..
  | .ldrhImmPre .. | .ldrhImmPost .. | .ldrsbRegPre .. | .ldrsbRegPost .. | .ldrsbImmPre .. | .ldrsbImmPost ..
  | .ldrshRegPre .. | .ldrshRegPost .. | .ldrshImmPre .. | .ldrshImmPost .. | .ldrImmPre .. | .ldrImmPost ..
  | .ldrtImm .. | .ldrRegPre .. | .ldrRegPost .. | .ldrtReg .. | .ldrbImmPre .. | .ldrbImmPost ..
  | .ldrbtImm .. | .ldrbRegPre .. | .ldrbRegPost .. | .ldrbtReg .. | .strImmPre .. | .strImmPost ..
  | .strtImm .. | .strRegPre .. | .strRegPost .. | .strtReg .. | .strbImmPre .. | .strbImmPost ..
  | .strbtImm .. | .strbRegPre .. | .strbRegPost .. | .strbtReg .. | .ldm .. | .stm ..
  | .b .. | .bl .. | .swi .. | .tLslImm .. | .tLsrImm .. | .tAsrImm ..
  | .tAddReg .. | .tSubReg .. | .tAddImm3 .. | .tSubImm3 .. | .tMovImm8 .. | .tCmpImm8 ..
  | .tAddImm8 .. | .tSubImm8 .. | .tAnd .. | .tEor .. | .tLslReg .. | .tLsrReg ..
  | .tAsrReg .. | .tAdc .. | .tSbc .. | .tRorReg .. | .tTst .. | .tNeg ..
  | .tCmp .. | .tCmn .. | .tOrr .. | .tMul .. | .tBic .. | .tMvn ..
  | .tAddHi .. | .tCmpHi .. | .tMovHi .. | .tBx .. | .tLdrPc .. | .tStrReg ..
  | .tStrhReg .. | .tStrbReg .. | .tLdsbReg .. | .tLdrReg .. | .tLdrhReg .. | .tLdrbReg ..
  | .tLdshReg .. | .tStrImm .. | .tLdrImm .. | .tStrbImm .. | .tLdrbImm .. | .tStrhImm ..
  | .tLdrhImm .. | .tStrSp .. | .tLdrSp .. | .tAddPc .. | .tAddSp .. | .tSpPlus ..
  | .tSpMinus .. | .tPush .. | .tPop .. | .tStmia .. | .tLdmia .. | .tBeq ..
  | .tBne .. | .tBcs .. | .tBcc .. | .tBmi .. | .tBpl .. | .tBvs ..
  | .tBvc .. | .tBhi .. | .tBls .. | .tBge .. | .tBlt .. | .tBgt ..
  | .tBle .. | .tSwi .. | .tB .. | .tBlHigh .. | .tBlLow .. => true
  | .undMulSpace w => undefinedMulSpace w
  | .undTestReg w => undefinedTestReg w
  | .undTestRsr w => undefinedTestRsr w
  | .undTestImm w => undefinedTestImm w
  | .undClass011 w => matchesRow w 0x0E000010#32 0x06000010#32
  | .undCopTransfer w => matchesRow w 0x0E000000#32 0x0C000000#32
  | .undCopOp w => matchesRow w 0x0F000000#32 0x0E000000#32
  | .tUndCond14 w => matchesRow w 0xFF00#16 0xDE00#16
  | .tUndB1 w => matchesRow w 0xFF00#16 0xB100#16
  | .tUndB2 w => matchesRow w 0xFE00#16 0xB200#16
  | .tUndB6 w => matchesRow w 0xFE00#16 0xB600#16
  | .tUndB8 w => matchesRow w 0xFC00#16 0xB800#16
  | .tUndBe w => matchesRow w 0xFE00#16 0xBE00#16
  | .tUndE8 w => matchesRow w 0xF800#16 0xE800#16

end Sys2Proof
end

