-- ==== Sys2Proof/Decode.lean ====
section
/-! DEFINITION. From bits to instructions and back: the two decode trees of spec/30_encoding.md (R104 for ARM, R120
for THUMB), the table's patterns (R116), and the encoder written from the formats of R103 and R121.

Both trees are total: a word with no meaning decodes to the constructor of the UNDEFINED row it belongs to, so it is
rejected by name. Only a byte list too short to hold an instruction is no instruction. -/

namespace Sys2Proof

/-! ### Fields of an encoded instruction -/

/-- `w[lo + len - 1 : lo]`, the field of `len` bits whose lowest bit is `lo` (R8). -/
def field {n : Nat} (w : BitVec n) (lo len : Nat) : BitVec len := w.extractLsb' lo len

/-- `w[i]` as a truth value (R8). -/
def bit {n : Nat} (w : BitVec n) (i : Nat) : Bool := w.getLsbD i

/-- The word that holds `v` in the field whose lowest bit is `lo`, and 0 elsewhere. -/
def place {n len : Nat} (lo : Nat) (v : BitVec len) : BitVec n := v.setWidth n <<< lo

/-- The word that holds `b` at bit `lo`, and 0 elsewhere. -/
def placeBit {n : Nat} (lo : Nat) (b : Bool) : BitVec n := place lo (BitVec.ofBool b)

/-- Bits 6:5 of a shifted operand, as a shift type (R106). -/
def ShiftType.ofBits (b : BitVec 2) : ShiftType :=
  if b = 0b00#2 then .lsl else if b = 0b01#2 then .lsr else if b = 0b10#2 then .asr else .ror

/-- A shift type as bits 6:5 (R106). -/
def ShiftType.toBits : ShiftType → BitVec 2
  | .lsl => 0b00#2
  | .lsr => 0b01#2
  | .asr => 0b10#2
  | .ror => 0b11#2

/-! ### ARM decode (R104) -/

/-- Data processing with an immediate operand (A1). The opcode is bits 24:21 (R105). -/
def decodeDpImm (w : BitVec 32) : Instr :=
  let op := field w 21 4
  if op = 0b0000#4 then .andImm (field w 28 4) (bit w 20) (field w 16 4) (field w 12 4) (field w 8 4) (field w 0 8)
  else if op = 0b0001#4 then .eorImm (field w 28 4) (bit w 20) (field w 16 4) (field w 12 4) (field w 8 4) (field w 0 8)
  else if op = 0b0010#4 then .subImm (field w 28 4) (bit w 20) (field w 16 4) (field w 12 4) (field w 8 4) (field w 0 8)
  else if op = 0b0011#4 then .rsbImm (field w 28 4) (bit w 20) (field w 16 4) (field w 12 4) (field w 8 4) (field w 0 8)
  else if op = 0b0100#4 then .addImm (field w 28 4) (bit w 20) (field w 16 4) (field w 12 4) (field w 8 4) (field w 0 8)
  else if op = 0b0101#4 then .adcImm (field w 28 4) (bit w 20) (field w 16 4) (field w 12 4) (field w 8 4) (field w 0 8)
  else if op = 0b0110#4 then .sbcImm (field w 28 4) (bit w 20) (field w 16 4) (field w 12 4) (field w 8 4) (field w 0 8)
  else if op = 0b0111#4 then .rscImm (field w 28 4) (bit w 20) (field w 16 4) (field w 12 4) (field w 8 4) (field w 0 8)
  else if op = 0b1000#4 then .tstImm (field w 28 4) (field w 16 4) (field w 12 4) (field w 8 4) (field w 0 8)
  else if op = 0b1001#4 then .teqImm (field w 28 4) (field w 16 4) (field w 12 4) (field w 8 4) (field w 0 8)
  else if op = 0b1010#4 then .cmpImm (field w 28 4) (field w 16 4) (field w 12 4) (field w 8 4) (field w 0 8)
  else if op = 0b1011#4 then .cmnImm (field w 28 4) (field w 16 4) (field w 12 4) (field w 8 4) (field w 0 8)
  else if op = 0b1100#4 then .orrImm (field w 28 4) (bit w 20) (field w 16 4) (field w 12 4) (field w 8 4) (field w 0 8)
  else if op = 0b1101#4 then .movImm (field w 28 4) (bit w 20) (field w 16 4) (field w 12 4) (field w 8 4) (field w 0 8)
  else if op = 0b1110#4 then .bicImm (field w 28 4) (bit w 20) (field w 16 4) (field w 12 4) (field w 8 4) (field w 0 8)
  else .mvnImm (field w 28 4) (bit w 20) (field w 16 4) (field w 12 4) (field w 8 4) (field w 0 8)

/-- Data processing with a register shifted by an immediate (A2). The opcode is bits 24:21 (R105). -/
def decodeDpReg (w : BitVec 32) : Instr :=
  let op := field w 21 4
  if op = 0b0000#4 then .andReg (field w 28 4) (bit w 20) (field w 16 4) (field w 12 4) (field w 7 5) (.ofBits (field w 5 2)) (field w 0 4)
  else if op = 0b0001#4 then .eorReg (field w 28 4) (bit w 20) (field w 16 4) (field w 12 4) (field w 7 5) (.ofBits (field w 5 2)) (field w 0 4)
  else if op = 0b0010#4 then .subReg (field w 28 4) (bit w 20) (field w 16 4) (field w 12 4) (field w 7 5) (.ofBits (field w 5 2)) (field w 0 4)
  else if op = 0b0011#4 then .rsbReg (field w 28 4) (bit w 20) (field w 16 4) (field w 12 4) (field w 7 5) (.ofBits (field w 5 2)) (field w 0 4)
  else if op = 0b0100#4 then .addReg (field w 28 4) (bit w 20) (field w 16 4) (field w 12 4) (field w 7 5) (.ofBits (field w 5 2)) (field w 0 4)
  else if op = 0b0101#4 then .adcReg (field w 28 4) (bit w 20) (field w 16 4) (field w 12 4) (field w 7 5) (.ofBits (field w 5 2)) (field w 0 4)
  else if op = 0b0110#4 then .sbcReg (field w 28 4) (bit w 20) (field w 16 4) (field w 12 4) (field w 7 5) (.ofBits (field w 5 2)) (field w 0 4)
  else if op = 0b0111#4 then .rscReg (field w 28 4) (bit w 20) (field w 16 4) (field w 12 4) (field w 7 5) (.ofBits (field w 5 2)) (field w 0 4)
  else if op = 0b1000#4 then .tstReg (field w 28 4) (field w 16 4) (field w 12 4) (field w 7 5) (.ofBits (field w 5 2)) (field w 0 4)
  else if op = 0b1001#4 then .teqReg (field w 28 4) (field w 16 4) (field w 12 4) (field w 7 5) (.ofBits (field w 5 2)) (field w 0 4)
  else if op = 0b1010#4 then .cmpReg (field w 28 4) (field w 16 4) (field w 12 4) (field w 7 5) (.ofBits (field w 5 2)) (field w 0 4)
  else if op = 0b1011#4 then .cmnReg (field w 28 4) (field w 16 4) (field w 12 4) (field w 7 5) (.ofBits (field w 5 2)) (field w 0 4)
  else if op = 0b1100#4 then .orrReg (field w 28 4) (bit w 20) (field w 16 4) (field w 12 4) (field w 7 5) (.ofBits (field w 5 2)) (field w 0 4)
  else if op = 0b1101#4 then .movReg (field w 28 4) (bit w 20) (field w 16 4) (field w 12 4) (field w 7 5) (.ofBits (field w 5 2)) (field w 0 4)
  else if op = 0b1110#4 then .bicReg (field w 28 4) (bit w 20) (field w 16 4) (field w 12 4) (field w 7 5) (.ofBits (field w 5 2)) (field w 0 4)
  else .mvnReg (field w 28 4) (bit w 20) (field w 16 4) (field w 12 4) (field w 7 5) (.ofBits (field w 5 2)) (field w 0 4)

/-- Data processing with a register shifted by a register (A3). The opcode is bits 24:21 (R105). -/
def decodeDpRsr (w : BitVec 32) : Instr :=
  let op := field w 21 4
  if op = 0b0000#4 then .andRsr (field w 28 4) (bit w 20) (field w 16 4) (field w 12 4) (field w 8 4) (.ofBits (field w 5 2)) (field w 0 4)
  else if op = 0b0001#4 then .eorRsr (field w 28 4) (bit w 20) (field w 16 4) (field w 12 4) (field w 8 4) (.ofBits (field w 5 2)) (field w 0 4)
  else if op = 0b0010#4 then .subRsr (field w 28 4) (bit w 20) (field w 16 4) (field w 12 4) (field w 8 4) (.ofBits (field w 5 2)) (field w 0 4)
  else if op = 0b0011#4 then .rsbRsr (field w 28 4) (bit w 20) (field w 16 4) (field w 12 4) (field w 8 4) (.ofBits (field w 5 2)) (field w 0 4)
  else if op = 0b0100#4 then .addRsr (field w 28 4) (bit w 20) (field w 16 4) (field w 12 4) (field w 8 4) (.ofBits (field w 5 2)) (field w 0 4)
  else if op = 0b0101#4 then .adcRsr (field w 28 4) (bit w 20) (field w 16 4) (field w 12 4) (field w 8 4) (.ofBits (field w 5 2)) (field w 0 4)
  else if op = 0b0110#4 then .sbcRsr (field w 28 4) (bit w 20) (field w 16 4) (field w 12 4) (field w 8 4) (.ofBits (field w 5 2)) (field w 0 4)
  else if op = 0b0111#4 then .rscRsr (field w 28 4) (bit w 20) (field w 16 4) (field w 12 4) (field w 8 4) (.ofBits (field w 5 2)) (field w 0 4)
  else if op = 0b1000#4 then .tstRsr (field w 28 4) (field w 16 4) (field w 12 4) (field w 8 4) (.ofBits (field w 5 2)) (field w 0 4)
  else if op = 0b1001#4 then .teqRsr (field w 28 4) (field w 16 4) (field w 12 4) (field w 8 4) (.ofBits (field w 5 2)) (field w 0 4)
  else if op = 0b1010#4 then .cmpRsr (field w 28 4) (field w 16 4) (field w 12 4) (field w 8 4) (.ofBits (field w 5 2)) (field w 0 4)
  else if op = 0b1011#4 then .cmnRsr (field w 28 4) (field w 16 4) (field w 12 4) (field w 8 4) (.ofBits (field w 5 2)) (field w 0 4)
  else if op = 0b1100#4 then .orrRsr (field w 28 4) (bit w 20) (field w 16 4) (field w 12 4) (field w 8 4) (.ofBits (field w 5 2)) (field w 0 4)
  else if op = 0b1101#4 then .movRsr (field w 28 4) (bit w 20) (field w 16 4) (field w 12 4) (field w 8 4) (.ofBits (field w 5 2)) (field w 0 4)
  else if op = 0b1110#4 then .bicRsr (field w 28 4) (bit w 20) (field w 16 4) (field w 12 4) (field w 8 4) (.ofBits (field w 5 2)) (field w 0 4)
  else .mvnRsr (field w 28 4) (bit w 20) (field w 16 4) (field w 12 4) (field w 8 4) (.ofBits (field w 5 2)) (field w 0 4)

/-- Bits 27:25 = 000 with bits 7:4 = 1001: the multiplies and the swaps, told apart by bits 24:20. -/
def decodeMultiplySwap (w : BitVec 32) : Instr :=
  let hi := field w 23 2
  if hi = 0b00#2 then
    if bit w 22 then .undMulSpace w
    else if bit w 21 then .mla (field w 28 4) (bit w 20) (field w 16 4) (field w 12 4) (field w 8 4) (field w 0 4)
    else .mul (field w 28 4) (bit w 20) (field w 16 4) (field w 12 4) (field w 8 4) (field w 0 4)
  else if hi = 0b01#2 then
    let ua := field w 21 2
    if ua = 0b00#2 then .umull (field w 28 4) (bit w 20) (field w 16 4) (field w 12 4) (field w 8 4) (field w 0 4)
    else if ua = 0b01#2 then .umlal (field w 28 4) (bit w 20) (field w 16 4) (field w 12 4) (field w 8 4) (field w 0 4)
    else if ua = 0b10#2 then .smull (field w 28 4) (bit w 20) (field w 16 4) (field w 12 4) (field w 8 4) (field w 0 4)
    else .smlal (field w 28 4) (bit w 20) (field w 16 4) (field w 12 4) (field w 8 4) (field w 0 4)
  else if hi = 0b10#2 then
    if field w 20 2 = 0b00#2 then
      if bit w 22 then .swpb (field w 28 4) (field w 16 4) (field w 12 4) (field w 8 4) (field w 0 4)
      else .swp (field w 28 4) (field w 16 4) (field w 12 4) (field w 8 4) (field w 0 4)
    else .undMulSpace w
  else .undMulSpace w

/-- STRH: bit 22 selects the immediate form, bit 24 pre-indexing. -/
def decodeStrh (w : BitVec 32) : Instr :=
  if bit w 22 then
    if bit w 24 then .strhImmPre (field w 28 4) (bit w 23) (bit w 21) (field w 16 4) (field w 12 4) (field w 8 4) (field w 0 4)
    else .strhImmPost (field w 28 4) (bit w 23) (field w 16 4) (field w 12 4) (field w 8 4) (field w 0 4)
  else if bit w 24 then .strhRegPre (field w 28 4) (bit w 23) (bit w 21) (field w 16 4) (field w 12 4) (field w 8 4) (field w 0 4)
  else .strhRegPost (field w 28 4) (bit w 23) (field w 16 4) (field w 12 4) (field w 8 4) (field w 0 4)

/-- LDRH: bit 22 selects the immediate form, bit 24 pre-indexing. -/
def decodeLdrh (w : BitVec 32) : Instr :=
  if bit w 22 then
    if bit w 24 then .ldrhImmPre (field w 28 4) (bit w 23) (bit w 21) (field w 16 4) (field w 12 4) (field w 8 4) (field w 0 4)
    else .ldrhImmPost (field w 28 4) (bit w 23) (field w 16 4) (field w 12 4) (field w 8 4) (field w 0 4)
  else if bit w 24 then .ldrhRegPre (field w 28 4) (bit w 23) (bit w 21) (field w 16 4) (field w 12 4) (field w 8 4) (field w 0 4)
  else .ldrhRegPost (field w 28 4) (bit w 23) (field w 16 4) (field w 12 4) (field w 8 4) (field w 0 4)

/-- LDRSB: bit 22 selects the immediate form, bit 24 pre-indexing. -/
def decodeLdrsb (w : BitVec 32) : Instr :=
  if bit w 22 then
    if bit w 24 then .ldrsbImmPre (field w 28 4) (bit w 23) (bit w 21) (field w 16 4) (field w 12 4) (field w 8 4) (field w 0 4)
    else .ldrsbImmPost (field w 28 4) (bit w 23) (field w 16 4) (field w 12 4) (field w 8 4) (field w 0 4)
  else if bit w 24 then .ldrsbRegPre (field w 28 4) (bit w 23) (bit w 21) (field w 16 4) (field w 12 4) (field w 8 4) (field w 0 4)
  else .ldrsbRegPost (field w 28 4) (bit w 23) (field w 16 4) (field w 12 4) (field w 8 4) (field w 0 4)

/-- LDRSH: bit 22 selects the immediate form, bit 24 pre-indexing. -/
def decodeLdrsh (w : BitVec 32) : Instr :=
  if bit w 22 then
    if bit w 24 then .ldrshImmPre (field w 28 4) (bit w 23) (bit w 21) (field w 16 4) (field w 12 4) (field w 8 4) (field w 0 4)
    else .ldrshImmPost (field w 28 4) (bit w 23) (field w 16 4) (field w 12 4) (field w 8 4) (field w 0 4)
  else if bit w 24 then .ldrshRegPre (field w 28 4) (bit w 23) (bit w 21) (field w 16 4) (field w 12 4) (field w 8 4) (field w 0 4)
  else .ldrshRegPost (field w 28 4) (bit w 23) (field w 16 4) (field w 12 4) (field w 8 4) (field w 0 4)

/-- Bits 27:25 = 000 with bits 7 and 4 set and bits 6:5 not 00: the halfword and signed transfers. A store with the
sign bit, and a post-indexed form with the write-back bit, are undefined (R269). -/
def decodeHalf (w : BitVec 32) : Instr :=
  let sh := field w 5 2
  if !bit w 24 && bit w 21 then .undMulSpace w
  else if !bit w 20 then
    if sh = 0b01#2 then decodeStrh w else .undMulSpace w
  else if sh = 0b01#2 then decodeLdrh w
  else if sh = 0b10#2 then decodeLdrsb w
  else decodeLdrsh w

/-- Bits 27:25 = 000 with bit 7 or bit 4 clear: data processing, with MRS, MSR and BX in the hole that the test
opcodes without S leave; there every fixed bit counts (R118). -/
def decodeDpSpace (w : BitVec 32) : Instr :=
  if field w 23 2 = 0b10#2 && !bit w 20 then
    if field w 4 24 = 0x12FFF1#24 then .bx (field w 28 4) (field w 0 4)
    else if field w 16 6 = 0b001111#6 && field w 0 12 = 0#12 then .mrs (field w 28 4) (bit w 22) (field w 12 4)
    else if field w 20 2 = 0b10#2 && field w 12 4 = 0b1111#4 && field w 4 8 = 0#8 then
      .msrReg (field w 28 4) (bit w 22) (bit w 19) (field w 17 2) (bit w 16) (field w 0 4)
    else if bit w 4 then .undTestRsr w
    else .undTestReg w
  else if bit w 4 then decodeDpRsr w
  else decodeDpReg w

/-- Bits 27:25 = 001: data processing with an immediate operand, with MSR in the hole of the test opcodes without S. -/
def decodeImmSpace (w : BitVec 32) : Instr :=
  if field w 23 2 = 0b10#2 && !bit w 20 then
    if bit w 21 && field w 12 4 = 0b1111#4 then
      .msrImm (field w 28 4) (bit w 22) (bit w 19) (field w 17 2) (bit w 16) (field w 8 4) (field w 0 8)
    else .undTestImm w
  else decodeDpImm w

/-- Bits 27:25 = 010: single data transfer with an immediate offset. L is bit 20, B bit 22; P = 0 with W = 1 is the forced-user form. -/
def decodeSingleImm (w : BitVec 32) : Instr :=
  if bit w 20 && !bit w 22 then
    if bit w 24 then .ldrImmPre (field w 28 4) (bit w 23) (bit w 21) (field w 16 4) (field w 12 4) (field w 0 12)
    else if bit w 21 then .ldrtImm (field w 28 4) (bit w 23) (field w 16 4) (field w 12 4) (field w 0 12)
    else .ldrImmPost (field w 28 4) (bit w 23) (field w 16 4) (field w 12 4) (field w 0 12)
  else if bit w 20 && bit w 22 then
    if bit w 24 then .ldrbImmPre (field w 28 4) (bit w 23) (bit w 21) (field w 16 4) (field w 12 4) (field w 0 12)
    else if bit w 21 then .ldrbtImm (field w 28 4) (bit w 23) (field w 16 4) (field w 12 4) (field w 0 12)
    else .ldrbImmPost (field w 28 4) (bit w 23) (field w 16 4) (field w 12 4) (field w 0 12)
  else if !bit w 20 && !bit w 22 then
    if bit w 24 then .strImmPre (field w 28 4) (bit w 23) (bit w 21) (field w 16 4) (field w 12 4) (field w 0 12)
    else if bit w 21 then .strtImm (field w 28 4) (bit w 23) (field w 16 4) (field w 12 4) (field w 0 12)
    else .strImmPost (field w 28 4) (bit w 23) (field w 16 4) (field w 12 4) (field w 0 12)
  else
    if bit w 24 then .strbImmPre (field w 28 4) (bit w 23) (bit w 21) (field w 16 4) (field w 12 4) (field w 0 12)
    else if bit w 21 then .strbtImm (field w 28 4) (bit w 23) (field w 16 4) (field w 12 4) (field w 0 12)
    else .strbImmPost (field w 28 4) (bit w 23) (field w 16 4) (field w 12 4) (field w 0 12)

/-- Bits 27:25 = 011 with bit 4 clear: single data transfer with a shifted register offset. L is bit 20, B bit 22; P = 0 with W = 1 is the forced-user form. -/
def decodeSingleReg (w : BitVec 32) : Instr :=
  if bit w 20 && !bit w 22 then
    if bit w 24 then .ldrRegPre (field w 28 4) (bit w 23) (bit w 21) (field w 16 4) (field w 12 4) (field w 7 5) (.ofBits (field w 5 2)) (field w 0 4)
    else if bit w 21 then .ldrtReg (field w 28 4) (bit w 23) (field w 16 4) (field w 12 4) (field w 7 5) (.ofBits (field w 5 2)) (field w 0 4)
    else .ldrRegPost (field w 28 4) (bit w 23) (field w 16 4) (field w 12 4) (field w 7 5) (.ofBits (field w 5 2)) (field w 0 4)
  else if bit w 20 && bit w 22 then
    if bit w 24 then .ldrbRegPre (field w 28 4) (bit w 23) (bit w 21) (field w 16 4) (field w 12 4) (field w 7 5) (.ofBits (field w 5 2)) (field w 0 4)
    else if bit w 21 then .ldrbtReg (field w 28 4) (bit w 23) (field w 16 4) (field w 12 4) (field w 7 5) (.ofBits (field w 5 2)) (field w 0 4)
    else .ldrbRegPost (field w 28 4) (bit w 23) (field w 16 4) (field w 12 4) (field w 7 5) (.ofBits (field w 5 2)) (field w 0 4)
  else if !bit w 20 && !bit w 22 then
    if bit w 24 then .strRegPre (field w 28 4) (bit w 23) (bit w 21) (field w 16 4) (field w 12 4) (field w 7 5) (.ofBits (field w 5 2)) (field w 0 4)
    else if bit w 21 then .strtReg (field w 28 4) (bit w 23) (field w 16 4) (field w 12 4) (field w 7 5) (.ofBits (field w 5 2)) (field w 0 4)
    else .strRegPost (field w 28 4) (bit w 23) (field w 16 4) (field w 12 4) (field w 7 5) (.ofBits (field w 5 2)) (field w 0 4)
  else
    if bit w 24 then .strbRegPre (field w 28 4) (bit w 23) (bit w 21) (field w 16 4) (field w 12 4) (field w 7 5) (.ofBits (field w 5 2)) (field w 0 4)
    else if bit w 21 then .strbtReg (field w 28 4) (bit w 23) (field w 16 4) (field w 12 4) (field w 7 5) (.ofBits (field w 5 2)) (field w 0 4)
    else .strbRegPost (field w 28 4) (bit w 23) (field w 16 4) (field w 12 4) (field w 7 5) (.ofBits (field w 5 2)) (field w 0 4)

/-- The ARM decode tree (R104), on a whole word. The condition field takes no part in it: it is tested when the
instruction is executed, before anything the instruction does (R102). -/
def decodeArm (w : BitVec 32) : Instr :=
  let cls := field w 25 3
  if cls = 0b000#3 then
    if bit w 7 && bit w 4 then
      if field w 5 2 = 0b00#2 then decodeMultiplySwap w else decodeHalf w
    else decodeDpSpace w
  else if cls = 0b001#3 then decodeImmSpace w
  else if cls = 0b010#3 then decodeSingleImm w
  else if cls = 0b011#3 then
    if bit w 4 then .undClass011 w else decodeSingleReg w
  else if cls = 0b100#3 then
    if bit w 20 then .ldm (field w 28 4) (bit w 24) (bit w 23) (bit w 22) (bit w 21) (field w 16 4) (field w 0 16)
    else .stm (field w 28 4) (bit w 24) (bit w 23) (bit w 22) (bit w 21) (field w 16 4) (field w 0 16)
  else if cls = 0b101#3 then
    if bit w 24 then .bl (field w 28 4) (field w 0 24) else .b (field w 28 4) (field w 0 24)
  else if cls = 0b110#3 then .undCopTransfer w
  else if bit w 24 then .swi (field w 28 4) (field w 0 24)
  else .undCopOp w

/-! ### THUMB decode (R120) -/

/-- The THUMB register ALU group (T4), by the opcode of bits 9:6 (R122). -/
def decodeThumbAlu (h : BitVec 16) : Instr :=
  let op := field h 6 4
  if op = 0b0000#4 then .tAnd (field h 3 3) (field h 0 3)
  else if op = 0b0001#4 then .tEor (field h 3 3) (field h 0 3)
  else if op = 0b0010#4 then .tLslReg (field h 3 3) (field h 0 3)
  else if op = 0b0011#4 then .tLsrReg (field h 3 3) (field h 0 3)
  else if op = 0b0100#4 then .tAsrReg (field h 3 3) (field h 0 3)
  else if op = 0b0101#4 then .tAdc (field h 3 3) (field h 0 3)
  else if op = 0b0110#4 then .tSbc (field h 3 3) (field h 0 3)
  else if op = 0b0111#4 then .tRorReg (field h 3 3) (field h 0 3)
  else if op = 0b1000#4 then .tTst (field h 3 3) (field h 0 3)
  else if op = 0b1001#4 then .tNeg (field h 3 3) (field h 0 3)
  else if op = 0b1010#4 then .tCmp (field h 3 3) (field h 0 3)
  else if op = 0b1011#4 then .tCmn (field h 3 3) (field h 0 3)
  else if op = 0b1100#4 then .tOrr (field h 3 3) (field h 0 3)
  else if op = 0b1101#4 then .tMul (field h 3 3) (field h 0 3)
  else if op = 0b1110#4 then .tBic (field h 3 3) (field h 0 3)
  else .tMvn (field h 3 3) (field h 0 3)

/-- The THUMB conditional branch space (T16), by bits 11:8: 14 is the trap, 15 the software interrupt. -/
def decodeThumbCond (h : BitVec 16) : Instr :=
  let op := field h 8 4
  if op = 0b0000#4 then .tBeq (field h 0 8)
  else if op = 0b0001#4 then .tBne (field h 0 8)
  else if op = 0b0010#4 then .tBcs (field h 0 8)
  else if op = 0b0011#4 then .tBcc (field h 0 8)
  else if op = 0b0100#4 then .tBmi (field h 0 8)
  else if op = 0b0101#4 then .tBpl (field h 0 8)
  else if op = 0b0110#4 then .tBvs (field h 0 8)
  else if op = 0b0111#4 then .tBvc (field h 0 8)
  else if op = 0b1000#4 then .tBhi (field h 0 8)
  else if op = 0b1001#4 then .tBls (field h 0 8)
  else if op = 0b1010#4 then .tBge (field h 0 8)
  else if op = 0b1011#4 then .tBlt (field h 0 8)
  else if op = 0b1100#4 then .tBgt (field h 0 8)
  else if op = 0b1101#4 then .tBle (field h 0 8)
  else if op = 0b1110#4 then .tUndCond14 h
  else .tSwi (field h 0 8)

/-- Bits 15:12 = 1011: stack pointer adjustment, PUSH, POP, and what is left unallocated (R124). -/
def decodeThumbMisc (h : BitVec 16) : Instr :=
  let op := field h 8 4
  if op = 0b0000#4 then
    if bit h 7 then .tSpMinus (field h 0 7) else .tSpPlus (field h 0 7)
  else if op = 0b0001#4 then .tUndB1 h
  else if field h 9 3 = 0b001#3 then .tUndB2 h
  else if field h 9 3 = 0b010#3 then .tPush (bit h 8) (field h 0 8)
  else if field h 9 3 = 0b011#3 then .tUndB6 h
  else if field h 10 2 = 0b10#2 then .tUndB8 h
  else if field h 9 3 = 0b110#3 then .tPop (bit h 8) (field h 0 8)
  else .tUndBe h

/-- Groups 01010 and 01011: loads and stores with a register offset (T7, T8), by bits 11:9. -/
def decodeThumbRegOffset (h : BitVec 16) : Instr :=
  let op := field h 9 3
  if op = 0b000#3 then .tStrReg (field h 6 3) (field h 3 3) (field h 0 3)
  else if op = 0b001#3 then .tStrhReg (field h 6 3) (field h 3 3) (field h 0 3)
  else if op = 0b010#3 then .tStrbReg (field h 6 3) (field h 3 3) (field h 0 3)
  else if op = 0b011#3 then .tLdsbReg (field h 6 3) (field h 3 3) (field h 0 3)
  else if op = 0b100#3 then .tLdrReg (field h 6 3) (field h 3 3) (field h 0 3)
  else if op = 0b101#3 then .tLdrhReg (field h 6 3) (field h 3 3) (field h 0 3)
  else if op = 0b110#3 then .tLdrbReg (field h 6 3) (field h 3 3) (field h 0 3)
  else .tLdshReg (field h 6 3) (field h 3 3) (field h 0 3)

/-- Groups 00000 to 00111: shifts by an immediate, add and subtract, 8-bit immediates (T1, T2, T3). -/
def decodeThumbImm (h : BitVec 16) : Instr :=
  let op := field h 11 3
  if op = 0b000#3 then .tLslImm (field h 6 5) (field h 3 3) (field h 0 3)
  else if op = 0b001#3 then .tLsrImm (field h 6 5) (field h 3 3) (field h 0 3)
  else if op = 0b010#3 then .tAsrImm (field h 6 5) (field h 3 3) (field h 0 3)
  else if op = 0b011#3 then
    if bit h 10 then
      if bit h 9 then .tSubImm3 (field h 6 3) (field h 3 3) (field h 0 3) else .tAddImm3 (field h 6 3) (field h 3 3) (field h 0 3)
    else if bit h 9 then .tSubReg (field h 6 3) (field h 3 3) (field h 0 3) else .tAddReg (field h 6 3) (field h 3 3) (field h 0 3)
  else if op = 0b100#3 then .tMovImm8 (field h 8 3) (field h 0 8)
  else if op = 0b101#3 then .tCmpImm8 (field h 8 3) (field h 0 8)
  else if op = 0b110#3 then .tAddImm8 (field h 8 3) (field h 0 8)
  else .tSubImm8 (field h 8 3) (field h 0 8)

/-- Groups 01000 to 01111: ALU and high registers, PC-relative load, loads and stores (T4 to T9). -/
def decodeThumbMem (h : BitVec 16) : Instr :=
  let op := field h 11 3
  if op = 0b000#3 then
    if bit h 10 then
      let hop := field h 8 2
      if hop = 0b00#2 then .tAddHi (bit h 7) (bit h 6) (field h 3 3) (field h 0 3)
      else if hop = 0b01#2 then .tCmpHi (bit h 7) (bit h 6) (field h 3 3) (field h 0 3)
      else if hop = 0b10#2 then .tMovHi (bit h 7) (bit h 6) (field h 3 3) (field h 0 3)
      else .tBx (bit h 7) (bit h 6) (field h 3 3) (field h 0 3)
    else decodeThumbAlu h
  else if op = 0b001#3 then .tLdrPc (field h 8 3) (field h 0 8)
  else if op = 0b010#3 then decodeThumbRegOffset h
  else if op = 0b011#3 then decodeThumbRegOffset h
  else if op = 0b100#3 then .tStrImm (field h 6 5) (field h 3 3) (field h 0 3)
  else if op = 0b101#3 then .tLdrImm (field h 6 5) (field h 3 3) (field h 0 3)
  else if op = 0b110#3 then .tStrbImm (field h 6 5) (field h 3 3) (field h 0 3)
  else .tLdrbImm (field h 6 5) (field h 3 3) (field h 0 3)

/-- Groups 10000 to 10111: halfword and SP-relative transfers, address computation, stack (T10 to T14). -/
def decodeThumbStack (h : BitVec 16) : Instr :=
  let op := field h 11 3
  if op = 0b000#3 then .tStrhImm (field h 6 5) (field h 3 3) (field h 0 3)
  else if op = 0b001#3 then .tLdrhImm (field h 6 5) (field h 3 3) (field h 0 3)
  else if op = 0b010#3 then .tStrSp (field h 8 3) (field h 0 8)
  else if op = 0b011#3 then .tLdrSp (field h 8 3) (field h 0 8)
  else if op = 0b100#3 then .tAddPc (field h 8 3) (field h 0 8)
  else if op = 0b101#3 then .tAddSp (field h 8 3) (field h 0 8)
  else decodeThumbMisc h

/-- Groups 11000 to 11111: multiple transfer and branches (T15 to T19). -/
def decodeThumbBranch (h : BitVec 16) : Instr :=
  let op := field h 11 3
  if op = 0b000#3 then .tStmia (field h 8 3) (field h 0 8)
  else if op = 0b001#3 then .tLdmia (field h 8 3) (field h 0 8)
  else if op = 0b010#3 then decodeThumbCond h
  else if op = 0b011#3 then decodeThumbCond h
  else if op = 0b100#3 then .tB (field h 0 11)
  else if op = 0b101#3 then .tUndE8 h
  else if op = 0b110#3 then .tBlHigh (field h 0 11)
  else .tBlLow (field h 0 11)

/-- The THUMB decode (R120), on a halfword: the top two bits choose among four groups of eight of the 32 groups. -/
def decodeThumb (h : BitVec 16) : Instr :=
  let top := field h 14 2
  if top = 0b00#2 then decodeThumbImm h
  else if top = 0b01#2 then decodeThumbMem h
  else if top = 0b10#2 then decodeThumbStack h
  else decodeThumbBranch h

/-- Decode an encoded instruction of either set. -/
def decode : Code → Instr
  | .arm w => decodeArm w
  | .thumb h => decodeThumb h


/-! ### The encoder

One function per layout of fields. Each takes `m`, the match value of the row (its fixed bits, R116), and puts every
field in its place (R103, R121). -/

/-- Layout A1: opcode and S in `m` and bit 20, Rn 19:16, Rd 15:12, rotate 11:8, imm8 7:0. -/
def encA1 (m : BitVec 32) (c : CondCode) (sf : Bool) (rn rd : Reg) (rot : BitVec 4) (imm : BitVec 8) : BitVec 32 :=
  m ||| place 28 c ||| placeBit 20 sf ||| place 16 rn ||| place 12 rd ||| place 8 rot ||| place 0 imm

/-- Layout A2: shift amount 11:7, shift type 6:5, Rm 3:0. -/
def encA2 (m : BitVec 32) (c : CondCode) (sf : Bool) (rn rd : Reg) (amt : BitVec 5) (ty : ShiftType) (rm : Reg) : BitVec 32 :=
  m ||| place 28 c ||| placeBit 20 sf ||| place 16 rn ||| place 12 rd ||| place 7 amt ||| place 5 ty.toBits ||| place 0 rm

/-- Layout A3: Rs 11:8, shift type 6:5, Rm 3:0. -/
def encA3 (m : BitVec 32) (c : CondCode) (sf : Bool) (rn rd rs : Reg) (ty : ShiftType) (rm : Reg) : BitVec 32 :=
  m ||| place 28 c ||| placeBit 20 sf ||| place 16 rn ||| place 12 rd ||| place 8 rs ||| place 5 ty.toBits ||| place 0 rm

/-- Layout A4: P 22, Rd 15:12. -/
def encA4 (m : BitVec 32) (c : CondCode) (p : Bool) (rd : Reg) : BitVec 32 :=
  m ||| place 28 c ||| placeBit 22 p ||| place 12 rd

/-- Layout A5: P 22, field mask 19:16 (its middle bits ignored), Rm 3:0. -/
def encA5 (m : BitVec 32) (c : CondCode) (p ff : Bool) (ign : BitVec 2) (fc : Bool) (rm : Reg) : BitVec 32 :=
  m ||| place 28 c ||| placeBit 22 p ||| placeBit 19 ff ||| place 17 ign ||| placeBit 16 fc ||| place 0 rm

/-- Layout A6: P 22, field mask 19:16, rotate 11:8, imm8 7:0. -/
def encA6 (m : BitVec 32) (c : CondCode) (p ff : Bool) (ign : BitVec 2) (fc : Bool) (rot : BitVec 4) (imm : BitVec 8) : BitVec 32 :=
  m ||| place 28 c ||| placeBit 22 p ||| placeBit 19 ff ||| place 17 ign ||| placeBit 16 fc ||| place 8 rot ||| place 0 imm

/-- Layout A7: Rm 3:0. -/
def encA7 (m : BitVec 32) (c : CondCode) (rm : Reg) : BitVec 32 :=
  m ||| place 28 c ||| place 0 rm

/-- Layout A8, A9, A10: S 20 and the register fields 19:16, 15:12, 11:8, 3:0. -/
def encA8 (m : BitVec 32) (c : CondCode) (sf : Bool) (ra rb : Reg) (rs : BitVec 4) (rm : Reg) : BitVec 32 :=
  m ||| place 28 c ||| placeBit 20 sf ||| place 16 ra ||| place 12 rb ||| place 8 rs ||| place 0 rm

/-- Layout A11, A12: U 23, W 21, Rn 19:16, Rd 15:12, and the fields 11:8 and 3:0. -/
def encA11 (m : BitVec 32) (c : CondCode) (u w : Bool) (rn rd : Reg) (hi lo : BitVec 4) : BitVec 32 :=
  m ||| place 28 c ||| placeBit 23 u ||| placeBit 21 w ||| place 16 rn ||| place 12 rd ||| place 8 hi ||| place 0 lo

/-- Layout A13 with I = 0: U 23, W 21, Rn 19:16, Rd 15:12, imm12 11:0. -/
def encA13i (m : BitVec 32) (c : CondCode) (u w : Bool) (rn rd : Reg) (off : BitVec 12) : BitVec 32 :=
  m ||| place 28 c ||| placeBit 23 u ||| placeBit 21 w ||| place 16 rn ||| place 12 rd ||| place 0 off

/-- Layout A13 with I = 1: shift amount 11:7, shift type 6:5, Rm 3:0. -/
def encA13r (m : BitVec 32) (c : CondCode) (u w : Bool) (rn rd : Reg) (amt : BitVec 5) (ty : ShiftType) (rm : Reg) : BitVec 32 :=
  m ||| place 28 c ||| placeBit 23 u ||| placeBit 21 w ||| place 16 rn ||| place 12 rd ||| place 7 amt ||| place 5 ty.toBits ||| place 0 rm

/-- Layout A14: P 24, U 23, S 22, W 21, Rn 19:16, register list 15:0. -/
def encA14 (m : BitVec 32) (c : CondCode) (p u ub w : Bool) (rn : Reg) (list : BitVec 16) : BitVec 32 :=
  m ||| place 28 c ||| placeBit 24 p ||| placeBit 23 u ||| placeBit 22 ub ||| placeBit 21 w ||| place 16 rn ||| place 0 list

/-- Layout A15, A16: a 24-bit field. -/
def encA15 (m : BitVec 32) (c : CondCode) (v : BitVec 24) : BitVec 32 :=
  m ||| place 28 c ||| place 0 v

/-- Layout T1, T9, T10: a 5-bit field 10:6, a register 5:3, Rd 2:0. -/
def encT1 (m : BitVec 16) (v : BitVec 5) (rs rd : LowReg) : BitVec 16 :=
  m ||| place 6 v ||| place 3 rs ||| place 0 rd

/-- Layout T2, T7, T8: a 3-bit field 8:6, a register 5:3, Rd 2:0. -/
def encT2 (m : BitVec 16) (v : BitVec 3) (rs rd : LowReg) : BitVec 16 :=
  m ||| place 6 v ||| place 3 rs ||| place 0 rd

/-- Layout T3, T6, T11, T12, T15: a register 10:8, an 8-bit field 7:0. -/
def encT3 (m : BitVec 16) (rd : LowReg) (v : BitVec 8) : BitVec 16 :=
  m ||| place 8 rd ||| place 0 v

/-- Layout T4: Rs 5:3, Rd 2:0. -/
def encT4 (m : BitVec 16) (rs rd : LowReg) : BitVec 16 :=
  m ||| place 3 rs ||| place 0 rd

/-- Layout T5: H1 7, H2 6, Rs 5:3, Rd 2:0. -/
def encT5 (m : BitVec 16) (h1 h2 : Bool) (rs rd : LowReg) : BitVec 16 :=
  m ||| placeBit 7 h1 ||| placeBit 6 h2 ||| place 3 rs ||| place 0 rd

/-- Layout T13: sword7 6:0. -/
def encT13 (m : BitVec 16) (v : BitVec 7) : BitVec 16 :=
  m ||| place 0 v

/-- Layout T14: R 8, list 7:0. -/
def encT14 (m : BitVec 16) (r : Bool) (v : BitVec 8) : BitVec 16 :=
  m ||| placeBit 8 r ||| place 0 v

/-- Layout T16, T17: an 8-bit field 7:0. -/
def encT16 (m : BitVec 16) (v : BitVec 8) : BitVec 16 :=
  m ||| place 0 v

/-- Layout T18, T19: an 11-bit field 10:0. -/
def encT18 (m : BitVec 16) (v : BitVec 11) : BitVec 16 :=
  m ||| place 0 v

/-- The word of an instruction: the match value of its row with every field in its place (R103, R121). An UNDEFINED
row's word is the word itself. -/
def encode : Instr → Code
  | .andImm c sf rn rd rot imm => .arm (encA1 0x02000000#32 c sf rn rd rot imm)
  | .andReg c sf rn rd amt ty rm => .arm (encA2 0x00000000#32 c sf rn rd amt ty rm)
  | .andRsr c sf rn rd rs ty rm => .arm (encA3 0x00000010#32 c sf rn rd rs ty rm)
  | .eorImm c sf rn rd rot imm => .arm (encA1 0x02200000#32 c sf rn rd rot imm)
  | .eorReg c sf rn rd amt ty rm => .arm (encA2 0x00200000#32 c sf rn rd amt ty rm)
  | .eorRsr c sf rn rd rs ty rm => .arm (encA3 0x00200010#32 c sf rn rd rs ty rm)
  | .subImm c sf rn rd rot imm => .arm (encA1 0x02400000#32 c sf rn rd rot imm)
  | .subReg c sf rn rd amt ty rm => .arm (encA2 0x00400000#32 c sf rn rd amt ty rm)
  | .subRsr c sf rn rd rs ty rm => .arm (encA3 0x00400010#32 c sf rn rd rs ty rm)
  | .rsbImm c sf rn rd rot imm => .arm (encA1 0x02600000#32 c sf rn rd rot imm)
  | .rsbReg c sf rn rd amt ty rm => .arm (encA2 0x00600000#32 c sf rn rd amt ty rm)
  | .rsbRsr c sf rn rd rs ty rm => .arm (encA3 0x00600010#32 c sf rn rd rs ty rm)
  | .addImm c sf rn rd rot imm => .arm (encA1 0x02800000#32 c sf rn rd rot imm)
  | .addReg c sf rn rd amt ty rm => .arm (encA2 0x00800000#32 c sf rn rd amt ty rm)
  | .addRsr c sf rn rd rs ty rm => .arm (encA3 0x00800010#32 c sf rn rd rs ty rm)
  | .adcImm c sf rn rd rot imm => .arm (encA1 0x02A00000#32 c sf rn rd rot imm)
  | .adcReg c sf rn rd amt ty rm => .arm (encA2 0x00A00000#32 c sf rn rd amt ty rm)
  | .adcRsr c sf rn rd rs ty rm => .arm (encA3 0x00A00010#32 c sf rn rd rs ty rm)
  | .sbcImm c sf rn rd rot imm => .arm (encA1 0x02C00000#32 c sf rn rd rot imm)
  | .sbcReg c sf rn rd amt ty rm => .arm (encA2 0x00C00000#32 c sf rn rd amt ty rm)
  | .sbcRsr c sf rn rd rs ty rm => .arm (encA3 0x00C00010#32 c sf rn rd rs ty rm)
  | .rscImm c sf rn rd rot imm => .arm (encA1 0x02E00000#32 c sf rn rd rot imm)
  | .rscReg c sf rn rd amt ty rm => .arm (encA2 0x00E00000#32 c sf rn rd amt ty rm)
  | .rscRsr c sf rn rd rs ty rm => .arm (encA3 0x00E00010#32 c sf rn rd rs ty rm)
  | .tstImm c rn ign rot imm => .arm (encA1 0x03100000#32 c false rn ign rot imm)
  | .tstReg c rn ign amt ty rm => .arm (encA2 0x01100000#32 c false rn ign amt ty rm)
  | .tstRsr c rn ign rs ty rm => .arm (encA3 0x01100010#32 c false rn ign rs ty rm)
  | .teqImm c rn ign rot imm => .arm (encA1 0x03300000#32 c false rn ign rot imm)
  | .teqReg c rn ign amt ty rm => .arm (encA2 0x01300000#32 c false rn ign amt ty rm)
  | .teqRsr c rn ign rs ty rm => .arm (encA3 0x01300010#32 c false rn ign rs ty rm)
  | .cmpImm c rn ign rot imm => .arm (encA1 0x03500000#32 c false rn ign rot imm)
  | .cmpReg c rn ign amt ty rm => .arm (encA2 0x01500000#32 c false rn ign amt ty rm)
  | .cmpRsr c rn ign rs ty rm => .arm (encA3 0x01500010#32 c false rn ign rs ty rm)
  | .cmnImm c rn ign rot imm => .arm (encA1 0x03700000#32 c false rn ign rot imm)
  | .cmnReg c rn ign amt ty rm => .arm (encA2 0x01700000#32 c false rn ign amt ty rm)
  | .cmnRsr c rn ign rs ty rm => .arm (encA3 0x01700010#32 c false rn ign rs ty rm)
  | .orrImm c sf rn rd rot imm => .arm (encA1 0x03800000#32 c sf rn rd rot imm)
  | .orrReg c sf rn rd amt ty rm => .arm (encA2 0x01800000#32 c sf rn rd amt ty rm)
  | .orrRsr c sf rn rd rs ty rm => .arm (encA3 0x01800010#32 c sf rn rd rs ty rm)
  | .movImm c sf ign rd rot imm => .arm (encA1 0x03A00000#32 c sf ign rd rot imm)
  | .movReg c sf ign rd amt ty rm => .arm (encA2 0x01A00000#32 c sf ign rd amt ty rm)
  | .movRsr c sf ign rd rs ty rm => .arm (encA3 0x01A00010#32 c sf ign rd rs ty rm)
  | .bicImm c sf rn rd rot imm => .arm (encA1 0x03C00000#32 c sf rn rd rot imm)
  | .bicReg c sf rn rd amt ty rm => .arm (encA2 0x01C00000#32 c sf rn rd amt ty rm)
  | .bicRsr c sf rn rd rs ty rm => .arm (encA3 0x01C00010#32 c sf rn rd rs ty rm)
  | .mvnImm c sf ign rd rot imm => .arm (encA1 0x03E00000#32 c sf ign rd rot imm)
  | .mvnReg c sf ign rd amt ty rm => .arm (encA2 0x01E00000#32 c sf ign rd amt ty rm)
  | .mvnRsr c sf ign rd rs ty rm => .arm (encA3 0x01E00010#32 c sf ign rd rs ty rm)
  | .mrs c p rd => .arm (encA4 0x010F0000#32 c p rd)
  | .msrReg c p ff ign fc rm => .arm (encA5 0x0120F000#32 c p ff ign fc rm)
  | .msrImm c p ff ign fc rot imm => .arm (encA6 0x0320F000#32 c p ff ign fc rot imm)
  | .bx c rm => .arm (encA7 0x012FFF10#32 c rm)
  | .mul c sf rd ign rs rm => .arm (encA8 0x00000090#32 c sf rd ign rs rm)
  | .mla c sf rd rn rs rm => .arm (encA8 0x00200090#32 c sf rd rn rs rm)
  | .umull c sf rdHi rdLo rs rm => .arm (encA8 0x00800090#32 c sf rdHi rdLo rs rm)
  | .umlal c sf rdHi rdLo rs rm => .arm (encA8 0x00A00090#32 c sf rdHi rdLo rs rm)
  | .smull c sf rdHi rdLo rs rm => .arm (encA8 0x00C00090#32 c sf rdHi rdLo rs rm)
  | .smlal c sf rdHi rdLo rs rm => .arm (encA8 0x00E00090#32 c sf rdHi rdLo rs rm)
  | .swp c rn rd ign rm => .arm (encA8 0x01000090#32 c false rn rd ign rm)
  | .swpb c rn rd ign rm => .arm (encA8 0x01400090#32 c false rn rd ign rm)
  | .strhRegPre c u w rn rd ign rm => .arm (encA11 0x010000B0#32 c u w rn rd ign rm)
  | .strhRegPost c u rn rd ign rm => .arm (encA11 0x000000B0#32 c u false rn rd ign rm)
  | .strhImmPre c u w rn rd hi lo => .arm (encA11 0x014000B0#32 c u w rn rd hi lo)
  | .strhImmPost c u rn rd hi lo => .arm (encA11 0x004000B0#32 c u false rn rd hi lo)
  | .ldrhRegPre c u w rn rd ign rm => .arm (encA11 0x011000B0#32 c u w rn rd ign rm)
  | .ldrhRegPost c u rn rd ign rm => .arm (encA11 0x001000B0#32 c u false rn rd ign rm)
  | .ldrhImmPre c u w rn rd hi lo => .arm (encA11 0x015000B0#32 c u w rn rd hi lo)
  | .ldrhImmPost c u rn rd hi lo => .arm (encA11 0x005000B0#32 c u false rn rd hi lo)
  | .ldrsbRegPre c u w rn rd ign rm => .arm (encA11 0x011000D0#32 c u w rn rd ign rm)
  | .ldrsbRegPost c u rn rd ign rm => .arm (encA11 0x001000D0#32 c u false rn rd ign rm)
  | .ldrsbImmPre c u w rn rd hi lo => .arm (encA11 0x015000D0#32 c u w rn rd hi lo)
  | .ldrsbImmPost c u rn rd hi lo => .arm (encA11 0x005000D0#32 c u false rn rd hi lo)
  | .ldrshRegPre c u w rn rd ign rm => .arm (encA11 0x011000F0#32 c u w rn rd ign rm)
  | .ldrshRegPost c u rn rd ign rm => .arm (encA11 0x001000F0#32 c u false rn rd ign rm)
  | .ldrshImmPre c u w rn rd hi lo => .arm (encA11 0x015000F0#32 c u w rn rd hi lo)
  | .ldrshImmPost c u rn rd hi lo => .arm (encA11 0x005000F0#32 c u false rn rd hi lo)
  | .ldrImmPre c u w rn rd off => .arm (encA13i 0x05100000#32 c u w rn rd off)
  | .ldrImmPost c u rn rd off => .arm (encA13i 0x04100000#32 c u false rn rd off)
  | .ldrtImm c u rn rd off => .arm (encA13i 0x04300000#32 c u false rn rd off)
  | .ldrRegPre c u w rn rd amt ty rm => .arm (encA13r 0x07100000#32 c u w rn rd amt ty rm)
  | .ldrRegPost c u rn rd amt ty rm => .arm (encA13r 0x06100000#32 c u false rn rd amt ty rm)
  | .ldrtReg c u rn rd amt ty rm => .arm (encA13r 0x06300000#32 c u false rn rd amt ty rm)
  | .ldrbImmPre c u w rn rd off => .arm (encA13i 0x05500000#32 c u w rn rd off)
  | .ldrbImmPost c u rn rd off => .arm (encA13i 0x04500000#32 c u false rn rd off)
  | .ldrbtImm c u rn rd off => .arm (encA13i 0x04700000#32 c u false rn rd off)
  | .ldrbRegPre c u w rn rd amt ty rm => .arm (encA13r 0x07500000#32 c u w rn rd amt ty rm)
  | .ldrbRegPost c u rn rd amt ty rm => .arm (encA13r 0x06500000#32 c u false rn rd amt ty rm)
  | .ldrbtReg c u rn rd amt ty rm => .arm (encA13r 0x06700000#32 c u false rn rd amt ty rm)
  | .strImmPre c u w rn rd off => .arm (encA13i 0x05000000#32 c u w rn rd off)
  | .strImmPost c u rn rd off => .arm (encA13i 0x04000000#32 c u false rn rd off)
  | .strtImm c u rn rd off => .arm (encA13i 0x04200000#32 c u false rn rd off)
  | .strRegPre c u w rn rd amt ty rm => .arm (encA13r 0x07000000#32 c u w rn rd amt ty rm)
  | .strRegPost c u rn rd amt ty rm => .arm (encA13r 0x06000000#32 c u false rn rd amt ty rm)
  | .strtReg c u rn rd amt ty rm => .arm (encA13r 0x06200000#32 c u false rn rd amt ty rm)
  | .strbImmPre c u w rn rd off => .arm (encA13i 0x05400000#32 c u w rn rd off)
  | .strbImmPost c u rn rd off => .arm (encA13i 0x04400000#32 c u false rn rd off)
  | .strbtImm c u rn rd off => .arm (encA13i 0x04600000#32 c u false rn rd off)
  | .strbRegPre c u w rn rd amt ty rm => .arm (encA13r 0x07400000#32 c u w rn rd amt ty rm)
  | .strbRegPost c u rn rd amt ty rm => .arm (encA13r 0x06400000#32 c u false rn rd amt ty rm)
  | .strbtReg c u rn rd amt ty rm => .arm (encA13r 0x06600000#32 c u false rn rd amt ty rm)
  | .ldm c p u ub w rn list => .arm (encA14 0x08100000#32 c p u ub w rn list)
  | .stm c p u ub w rn list => .arm (encA14 0x08000000#32 c p u ub w rn list)
  | .b c off => .arm (encA15 0x0A000000#32 c off)
  | .bl c off => .arm (encA15 0x0B000000#32 c off)
  | .swi c comment => .arm (encA15 0x0F000000#32 c comment)
  | .undMulSpace w => .arm w
  | .undTestReg w => .arm w
  | .undTestRsr w => .arm w
  | .undTestImm w => .arm w
  | .undClass011 w => .arm w
  | .undCopTransfer w => .arm w
  | .undCopOp w => .arm w
  | .tLslImm amt rs rd => .thumb (encT1 0x0000#16 amt rs rd)
  | .tLsrImm amt rs rd => .thumb (encT1 0x0800#16 amt rs rd)
  | .tAsrImm amt rs rd => .thumb (encT1 0x1000#16 amt rs rd)
  | .tAddReg rn rs rd => .thumb (encT2 0x1800#16 rn rs rd)
  | .tSubReg rn rs rd => .thumb (encT2 0x1A00#16 rn rs rd)
  | .tAddImm3 imm rs rd => .thumb (encT2 0x1C00#16 imm rs rd)
  | .tSubImm3 imm rs rd => .thumb (encT2 0x1E00#16 imm rs rd)
  | .tMovImm8 rd imm => .thumb (encT3 0x2000#16 rd imm)
  | .tCmpImm8 rd imm => .thumb (encT3 0x2800#16 rd imm)
  | .tAddImm8 rd imm => .thumb (encT3 0x3000#16 rd imm)
  | .tSubImm8 rd imm => .thumb (encT3 0x3800#16 rd imm)
  | .tAnd rs rd => .thumb (encT4 0x4000#16 rs rd)
  | .tEor rs rd => .thumb (encT4 0x4040#16 rs rd)
  | .tLslReg rs rd => .thumb (encT4 0x4080#16 rs rd)
  | .tLsrReg rs rd => .thumb (encT4 0x40C0#16 rs rd)
  | .tAsrReg rs rd => .thumb (encT4 0x4100#16 rs rd)
  | .tAdc rs rd => .thumb (encT4 0x4140#16 rs rd)
  | .tSbc rs rd => .thumb (encT4 0x4180#16 rs rd)
  | .tRorReg rs rd => .thumb (encT4 0x41C0#16 rs rd)
  | .tTst rs rd => .thumb (encT4 0x4200#16 rs rd)
  | .tNeg rs rd => .thumb (encT4 0x4240#16 rs rd)
  | .tCmp rs rd => .thumb (encT4 0x4280#16 rs rd)
  | .tCmn rs rd => .thumb (encT4 0x42C0#16 rs rd)
  | .tOrr rs rd => .thumb (encT4 0x4300#16 rs rd)
  | .tMul rs rd => .thumb (encT4 0x4340#16 rs rd)
  | .tBic rs rd => .thumb (encT4 0x4380#16 rs rd)
  | .tMvn rs rd => .thumb (encT4 0x43C0#16 rs rd)
  | .tAddHi h1 h2 rs rd => .thumb (encT5 0x4400#16 h1 h2 rs rd)
  | .tCmpHi h1 h2 rs rd => .thumb (encT5 0x4500#16 h1 h2 rs rd)
  | .tMovHi h1 h2 rs rd => .thumb (encT5 0x4600#16 h1 h2 rs rd)
  | .tBx ignH h2 rs ign => .thumb (encT5 0x4700#16 ignH h2 rs ign)
  | .tLdrPc rd off => .thumb (encT3 0x4800#16 rd off)
  | .tStrReg ro rb rd => .thumb (encT2 0x5000#16 ro rb rd)
  | .tStrhReg ro rb rd => .thumb (encT2 0x5200#16 ro rb rd)
  | .tStrbReg ro rb rd => .thumb (encT2 0x5400#16 ro rb rd)
  | .tLdsbReg ro rb rd => .thumb (encT2 0x5600#16 ro rb rd)
  | .tLdrReg ro rb rd => .thumb (encT2 0x5800#16 ro rb rd)
  | .tLdrhReg ro rb rd => .thumb (encT2 0x5A00#16 ro rb rd)
  | .tLdrbReg ro rb rd => .thumb (encT2 0x5C00#16 ro rb rd)
  | .tLdshReg ro rb rd => .thumb (encT2 0x5E00#16 ro rb rd)
  | .tStrImm off rb rd => .thumb (encT1 0x6000#16 off rb rd)
  | .tLdrImm off rb rd => .thumb (encT1 0x6800#16 off rb rd)
  | .tStrbImm off rb rd => .thumb (encT1 0x7000#16 off rb rd)
  | .tLdrbImm off rb rd => .thumb (encT1 0x7800#16 off rb rd)
  | .tStrhImm off rb rd => .thumb (encT1 0x8000#16 off rb rd)
  | .tLdrhImm off rb rd => .thumb (encT1 0x8800#16 off rb rd)
  | .tStrSp rd off => .thumb (encT3 0x9000#16 rd off)
  | .tLdrSp rd off => .thumb (encT3 0x9800#16 rd off)
  | .tAddPc rd off => .thumb (encT3 0xA000#16 rd off)
  | .tAddSp rd off => .thumb (encT3 0xA800#16 rd off)
  | .tSpPlus off => .thumb (encT13 0xB000#16 off)
  | .tSpMinus off => .thumb (encT13 0xB080#16 off)
  | .tPush r list => .thumb (encT14 0xB400#16 r list)
  | .tPop r list => .thumb (encT14 0xBC00#16 r list)
  | .tStmia rb list => .thumb (encT3 0xC000#16 rb list)
  | .tLdmia rb list => .thumb (encT3 0xC800#16 rb list)
  | .tBeq off => .thumb (encT14 0xD000#16 false off)
  | .tBne off => .thumb (encT14 0xD100#16 false off)
  | .tBcs off => .thumb (encT14 0xD200#16 false off)
  | .tBcc off => .thumb (encT14 0xD300#16 false off)
  | .tBmi off => .thumb (encT14 0xD400#16 false off)
  | .tBpl off => .thumb (encT14 0xD500#16 false off)
  | .tBvs off => .thumb (encT14 0xD600#16 false off)
  | .tBvc off => .thumb (encT14 0xD700#16 false off)
  | .tBhi off => .thumb (encT14 0xD800#16 false off)
  | .tBls off => .thumb (encT14 0xD900#16 false off)
  | .tBge off => .thumb (encT14 0xDA00#16 false off)
  | .tBlt off => .thumb (encT14 0xDB00#16 false off)
  | .tBgt off => .thumb (encT14 0xDC00#16 false off)
  | .tBle off => .thumb (encT14 0xDD00#16 false off)
  | .tUndCond14 w => .thumb w
  | .tSwi comment => .thumb (encT14 0xDF00#16 false comment)
  | .tB off => .thumb (encT18 0xE000#16 off)
  | .tBlHigh off => .thumb (encT18 0xF000#16 off)
  | .tBlLow off => .thumb (encT18 0xF800#16 off)
  | .tUndB1 w => .thumb w
  | .tUndB2 w => .thumb w
  | .tUndB6 w => .thumb w
  | .tUndB8 w => .thumb w
  | .tUndBe w => .thumb w
  | .tUndE8 w => .thumb w

/-! ### The opcode table's patterns (R116) -/

/-- The row of spec/opcode_table.json an instruction stands for, as its (match, mask): a word `w` matches the row when
`w AND mask = match`. A THUMB row's 16 bits stand in the low half. -/
def tableRow : Instr → Word × Word
  | .andImm .. => (0x02000000, 0x0FE00000)
  | .andReg .. => (0x00000000, 0x0FE00010)
  | .andRsr .. => (0x00000010, 0x0FE00090)
  | .eorImm .. => (0x02200000, 0x0FE00000)
  | .eorReg .. => (0x00200000, 0x0FE00010)
  | .eorRsr .. => (0x00200010, 0x0FE00090)
  | .subImm .. => (0x02400000, 0x0FE00000)
  | .subReg .. => (0x00400000, 0x0FE00010)
  | .subRsr .. => (0x00400010, 0x0FE00090)
  | .rsbImm .. => (0x02600000, 0x0FE00000)
  | .rsbReg .. => (0x00600000, 0x0FE00010)
  | .rsbRsr .. => (0x00600010, 0x0FE00090)
  | .addImm .. => (0x02800000, 0x0FE00000)
  | .addReg .. => (0x00800000, 0x0FE00010)
  | .addRsr .. => (0x00800010, 0x0FE00090)
  | .adcImm .. => (0x02A00000, 0x0FE00000)
  | .adcReg .. => (0x00A00000, 0x0FE00010)
  | .adcRsr .. => (0x00A00010, 0x0FE00090)
  | .sbcImm .. => (0x02C00000, 0x0FE00000)
  | .sbcReg .. => (0x00C00000, 0x0FE00010)
  | .sbcRsr .. => (0x00C00010, 0x0FE00090)
  | .rscImm .. => (0x02E00000, 0x0FE00000)
  | .rscReg .. => (0x00E00000, 0x0FE00010)
  | .rscRsr .. => (0x00E00010, 0x0FE00090)
  | .tstImm .. => (0x03100000, 0x0FF00000)
  | .tstReg .. => (0x01100000, 0x0FF00010)
  | .tstRsr .. => (0x01100010, 0x0FF00090)
  | .teqImm .. => (0x03300000, 0x0FF00000)
  | .teqReg .. => (0x01300000, 0x0FF00010)
  | .teqRsr .. => (0x01300010, 0x0FF00090)
  | .cmpImm .. => (0x03500000, 0x0FF00000)
  | .cmpReg .. => (0x01500000, 0x0FF00010)
  | .cmpRsr .. => (0x01500010, 0x0FF00090)
  | .cmnImm .. => (0x03700000, 0x0FF00000)
  | .cmnReg .. => (0x01700000, 0x0FF00010)
  | .cmnRsr .. => (0x01700010, 0x0FF00090)
  | .orrImm .. => (0x03800000, 0x0FE00000)
  | .orrReg .. => (0x01800000, 0x0FE00010)
  | .orrRsr .. => (0x01800010, 0x0FE00090)
  | .movImm .. => (0x03A00000, 0x0FE00000)
  | .movReg .. => (0x01A00000, 0x0FE00010)
  | .movRsr .. => (0x01A00010, 0x0FE00090)
  | .bicImm .. => (0x03C00000, 0x0FE00000)
  | .bicReg .. => (0x01C00000, 0x0FE00010)
  | .bicRsr .. => (0x01C00010, 0x0FE00090)
  | .mvnImm .. => (0x03E00000, 0x0FE00000)
  | .mvnReg .. => (0x01E00000, 0x0FE00010)
  | .mvnRsr .. => (0x01E00010, 0x0FE00090)
  | .mrs .. => (0x010F0000, 0x0FBF0FFF)
  | .msrReg .. => (0x0120F000, 0x0FB0FFF0)
  | .msrImm .. => (0x0320F000, 0x0FB0F000)
  | .bx .. => (0x012FFF10, 0x0FFFFFF0)
  | .mul .. => (0x00000090, 0x0FE000F0)
  | .mla .. => (0x00200090, 0x0FE000F0)
  | .umull .. => (0x00800090, 0x0FE000F0)
  | .umlal .. => (0x00A00090, 0x0FE000F0)
  | .smull .. => (0x00C00090, 0x0FE000F0)
  | .smlal .. => (0x00E00090, 0x0FE000F0)
  | .swp .. => (0x01000090, 0x0FF000F0)
  | .swpb .. => (0x01400090, 0x0FF000F0)
  | .strhRegPre .. => (0x010000B0, 0x0F5000F0)
  | .strhRegPost .. => (0x000000B0, 0x0F7000F0)
  | .strhImmPre .. => (0x014000B0, 0x0F5000F0)
  | .strhImmPost .. => (0x004000B0, 0x0F7000F0)
  | .ldrhRegPre .. => (0x011000B0, 0x0F5000F0)
  | .ldrhRegPost .. => (0x001000B0, 0x0F7000F0)
  | .ldrhImmPre .. => (0x015000B0, 0x0F5000F0)
  | .ldrhImmPost .. => (0x005000B0, 0x0F7000F0)
  | .ldrsbRegPre .. => (0x011000D0, 0x0F5000F0)
  | .ldrsbRegPost .. => (0x001000D0, 0x0F7000F0)
  | .ldrsbImmPre .. => (0x015000D0, 0x0F5000F0)
  | .ldrsbImmPost .. => (0x005000D0, 0x0F7000F0)
  | .ldrshRegPre .. => (0x011000F0, 0x0F5000F0)
  | .ldrshRegPost .. => (0x001000F0, 0x0F7000F0)
  | .ldrshImmPre .. => (0x015000F0, 0x0F5000F0)
  | .ldrshImmPost .. => (0x005000F0, 0x0F7000F0)
  | .ldrImmPre .. => (0x05100000, 0x0F500000)
  | .ldrImmPost .. => (0x04100000, 0x0F700000)
  | .ldrtImm .. => (0x04300000, 0x0F700000)
  | .ldrRegPre .. => (0x07100000, 0x0F500010)
  | .ldrRegPost .. => (0x06100000, 0x0F700010)
  | .ldrtReg .. => (0x06300000, 0x0F700010)
  | .ldrbImmPre .. => (0x05500000, 0x0F500000)
  | .ldrbImmPost .. => (0x04500000, 0x0F700000)
  | .ldrbtImm .. => (0x04700000, 0x0F700000)
  | .ldrbRegPre .. => (0x07500000, 0x0F500010)
  | .ldrbRegPost .. => (0x06500000, 0x0F700010)
  | .ldrbtReg .. => (0x06700000, 0x0F700010)
  | .strImmPre .. => (0x05000000, 0x0F500000)
  | .strImmPost .. => (0x04000000, 0x0F700000)
  | .strtImm .. => (0x04200000, 0x0F700000)
  | .strRegPre .. => (0x07000000, 0x0F500010)
  | .strRegPost .. => (0x06000000, 0x0F700010)
  | .strtReg .. => (0x06200000, 0x0F700010)
  | .strbImmPre .. => (0x05400000, 0x0F500000)
  | .strbImmPost .. => (0x04400000, 0x0F700000)
  | .strbtImm .. => (0x04600000, 0x0F700000)
  | .strbRegPre .. => (0x07400000, 0x0F500010)
  | .strbRegPost .. => (0x06400000, 0x0F700010)
  | .strbtReg .. => (0x06600000, 0x0F700010)
  | .ldm .. => (0x08100000, 0x0E100000)
  | .stm .. => (0x08000000, 0x0E100000)
  | .b .. => (0x0A000000, 0x0F000000)
  | .bl .. => (0x0B000000, 0x0F000000)
  | .swi .. => (0x0F000000, 0x0F000000)
  | .undMulSpace .. => (0x00000090, 0x0E000090)
  | .undTestReg .. => (0x01000000, 0x0F900010)
  | .undTestRsr .. => (0x01000010, 0x0F900090)
  | .undTestImm .. => (0x03000000, 0x0F900000)
  | .undClass011 .. => (0x06000010, 0x0E000010)
  | .undCopTransfer .. => (0x0C000000, 0x0E000000)
  | .undCopOp .. => (0x0E000000, 0x0F000000)
  | .tLslImm .. => (0x00000000, 0x0000F800)
  | .tLsrImm .. => (0x00000800, 0x0000F800)
  | .tAsrImm .. => (0x00001000, 0x0000F800)
  | .tAddReg .. => (0x00001800, 0x0000FE00)
  | .tSubReg .. => (0x00001A00, 0x0000FE00)
  | .tAddImm3 .. => (0x00001C00, 0x0000FE00)
  | .tSubImm3 .. => (0x00001E00, 0x0000FE00)
  | .tMovImm8 .. => (0x00002000, 0x0000F800)
  | .tCmpImm8 .. => (0x00002800, 0x0000F800)
  | .tAddImm8 .. => (0x00003000, 0x0000F800)
  | .tSubImm8 .. => (0x00003800, 0x0000F800)
  | .tAnd .. => (0x00004000, 0x0000FFC0)
  | .tEor .. => (0x00004040, 0x0000FFC0)
  | .tLslReg .. => (0x00004080, 0x0000FFC0)
  | .tLsrReg .. => (0x000040C0, 0x0000FFC0)
  | .tAsrReg .. => (0x00004100, 0x0000FFC0)
  | .tAdc .. => (0x00004140, 0x0000FFC0)
  | .tSbc .. => (0x00004180, 0x0000FFC0)
  | .tRorReg .. => (0x000041C0, 0x0000FFC0)
  | .tTst .. => (0x00004200, 0x0000FFC0)
  | .tNeg .. => (0x00004240, 0x0000FFC0)
  | .tCmp .. => (0x00004280, 0x0000FFC0)
  | .tCmn .. => (0x000042C0, 0x0000FFC0)
  | .tOrr .. => (0x00004300, 0x0000FFC0)
  | .tMul .. => (0x00004340, 0x0000FFC0)
  | .tBic .. => (0x00004380, 0x0000FFC0)
  | .tMvn .. => (0x000043C0, 0x0000FFC0)
  | .tAddHi .. => (0x00004400, 0x0000FF00)
  | .tCmpHi .. => (0x00004500, 0x0000FF00)
  | .tMovHi .. => (0x00004600, 0x0000FF00)
  | .tBx .. => (0x00004700, 0x0000FF00)
  | .tLdrPc .. => (0x00004800, 0x0000F800)
  | .tStrReg .. => (0x00005000, 0x0000FE00)
  | .tStrhReg .. => (0x00005200, 0x0000FE00)
  | .tStrbReg .. => (0x00005400, 0x0000FE00)
  | .tLdsbReg .. => (0x00005600, 0x0000FE00)
  | .tLdrReg .. => (0x00005800, 0x0000FE00)
  | .tLdrhReg .. => (0x00005A00, 0x0000FE00)
  | .tLdrbReg .. => (0x00005C00, 0x0000FE00)
  | .tLdshReg .. => (0x00005E00, 0x0000FE00)
  | .tStrImm .. => (0x00006000, 0x0000F800)
  | .tLdrImm .. => (0x00006800, 0x0000F800)
  | .tStrbImm .. => (0x00007000, 0x0000F800)
  | .tLdrbImm .. => (0x00007800, 0x0000F800)
  | .tStrhImm .. => (0x00008000, 0x0000F800)
  | .tLdrhImm .. => (0x00008800, 0x0000F800)
  | .tStrSp .. => (0x00009000, 0x0000F800)
  | .tLdrSp .. => (0x00009800, 0x0000F800)
  | .tAddPc .. => (0x0000A000, 0x0000F800)
  | .tAddSp .. => (0x0000A800, 0x0000F800)
  | .tSpPlus .. => (0x0000B000, 0x0000FF80)
  | .tSpMinus .. => (0x0000B080, 0x0000FF80)
  | .tPush .. => (0x0000B400, 0x0000FE00)
  | .tPop .. => (0x0000BC00, 0x0000FE00)
  | .tStmia .. => (0x0000C000, 0x0000F800)
  | .tLdmia .. => (0x0000C800, 0x0000F800)
  | .tBeq .. => (0x0000D000, 0x0000FF00)
  | .tBne .. => (0x0000D100, 0x0000FF00)
  | .tBcs .. => (0x0000D200, 0x0000FF00)
  | .tBcc .. => (0x0000D300, 0x0000FF00)
  | .tBmi .. => (0x0000D400, 0x0000FF00)
  | .tBpl .. => (0x0000D500, 0x0000FF00)
  | .tBvs .. => (0x0000D600, 0x0000FF00)
  | .tBvc .. => (0x0000D700, 0x0000FF00)
  | .tBhi .. => (0x0000D800, 0x0000FF00)
  | .tBls .. => (0x0000D900, 0x0000FF00)
  | .tBge .. => (0x0000DA00, 0x0000FF00)
  | .tBlt .. => (0x0000DB00, 0x0000FF00)
  | .tBgt .. => (0x0000DC00, 0x0000FF00)
  | .tBle .. => (0x0000DD00, 0x0000FF00)
  | .tUndCond14 .. => (0x0000DE00, 0x0000FF00)
  | .tSwi .. => (0x0000DF00, 0x0000FF00)
  | .tB .. => (0x0000E000, 0x0000F800)
  | .tBlHigh .. => (0x0000F000, 0x0000F800)
  | .tBlLow .. => (0x0000F800, 0x0000F800)
  | .tUndB1 .. => (0x0000B100, 0x0000FF00)
  | .tUndB2 .. => (0x0000B200, 0x0000FE00)
  | .tUndB6 .. => (0x0000B600, 0x0000FE00)
  | .tUndB8 .. => (0x0000B800, 0x0000FC00)
  | .tUndBe .. => (0x0000BE00, 0x0000FE00)
  | .tUndE8 .. => (0x0000E800, 0x0000F800)

/-! ### Bytes -/

/-- A little-endian word of four bytes, the first at the lowest address (R71). -/
def wordOfBytes (b0 b1 b2 b3 : Byte) : Word := b3 ++ b2 ++ b1 ++ b0

/-- A little-endian halfword of two bytes (R71). -/
def halfOfBytes (b0 b1 : Byte) : Half := b1 ++ b0

/-- Byte `k` of a word or halfword, byte 0 the least significant. -/
def byteOf {n : Nat} (w : BitVec n) (k : Nat) : Byte := field w (8 * k) 8

/-- Why a byte list holds no instruction: it ends too early. Every word and every halfword decodes. -/
inductive DecodeError where
  | truncated
deriving DecidableEq, Repr

/-- Decode the instruction at the head of a byte list, in THUMB state (`thumb`) or in ARM state, and give the bytes
after it (R100: the length is fixed by the state alone). -/
def decodeBytes (thumb : Bool) : List Byte → Except DecodeError (Instr × List Byte)
  | b0 :: b1 :: rest =>
    if thumb then .ok (decodeThumb (halfOfBytes b0 b1), rest)
    else
      match rest with
      | b2 :: b3 :: rest' => .ok (decodeArm (wordOfBytes b0 b1 b2 b3), rest')
      | _ => .error .truncated
  | _ => .error .truncated

/-- The bytes of an encoded instruction as the hardware stores them. -/
def Code.bytes : Code → List Byte
  | .arm w => [byteOf w 0, byteOf w 1, byteOf w 2, byteOf w 3]
  | .thumb h => [byteOf h 0, byteOf h 1]

/-- The instruction the decoder reads from an instruction of `nbits` bits numbered as the opcode table numbers them:
16 bits are a THUMB halfword, 32 bits an ARM word, no other length is an instruction. -/
def decodeTableWord (nbits w : Nat) : Option Instr :=
  let code : Option Code :=
    if nbits = 16 then some (.thumb (BitVec.ofNat 16 w))
    else if nbits = 32 then some (.arm (BitVec.ofNat 32 w))
    else none
  match code with
  | none => none
  | some k =>
    match decodeBytes (decide (nbits = 16)) k.bytes with
    | .ok (i, _) => some i
    | .error _ => none

end Sys2Proof
end

