-- ==== Sys2Proof/Config.lean ====
section
/-! DEFINITION. What the spec leaves to the surrounding system: the named parameters of spec/00_scope.md R7, and the
free values. A parameter is plain data and stands in State, where no step of the core changes it, so that every
statement about every state is a statement about every value of every parameter. -/

namespace Sys2Proof

/-- `MISALIGNED_POLICY` (R76): what a 2- or 4-byte data access at an address that is not naturally aligned does. -/
inductive MisalignedPolicy where
  /-- R77: the model gives the instruction no meaning. -/
  | refuse
  /-- R78: the behaviour of the real core. -/
  | rotate
deriving DecidableEq, Repr

/-- `SwiService` (R7, R466): what answers a software interrupt. -/
inductive SwiService where
  /-- R466: a model that is given no service gives a software interrupt no successor. -/
  | absent
  /-- R466, R471: the architecture's entry sequence, `SwiService = HostExceptionEntry(SWI)`. -/
  | vectored
  /-- R466: any other service: host actions and bus writes that nothing constrains (`Config.swiService`). -/
  | external
deriving DecidableEq, Repr

/-- The parameters of R7 that a model takes as arguments. `Bus` is the reference memory of R74 and `Host` is the
schedule in State. -/
structure Params where
  misaligned : MisalignedPolicy
  swi : SwiService
  /-- `RESET_PC`; R491 requires a multiple of 4. -/
  resetPc : Word
deriving DecidableEq, Repr

namespace Config

/-- The parameters a machine is reset with. DESIGN CHOICE, unsafe (notes/assumptions/1.md, 2.md): the spec's defaults
are `refuse` and no service, under which a misaligned access or a software interrupt ends the run. `RESET_PC` is the
spec's default (R7). -/
def params : Params where
  misaligned := .rotate
  swi := .vectored
  resetPc := 0x00000000#32

/-- FREE VALUE (R490: "every other piece of state becomes unspecified"): word `k` of what the `n`-th reset by the host
leaves in a register. -/
opaque freeWord : Nat → Nat → Word

/-- FREE VALUE (R490): bit `k` of what the `n`-th reset by the host leaves in a status register. -/
opaque freeBit : Nat → Nat → Bool

end Config

end Sys2Proof
end

