-- ==== Sys2Proof/Machine/State.lean ====
section
/-! DEFINITION. The state of the machine (spec/10_state.md, R20 to R28), as plain data, and its value after reset (R47).

Beside the state of R20 it holds the reference memory of R74, the parameters of R7, and three fields that are the
model's own: the record of the transactions the block has issued (R5), the schedule that says which agent moves next
(R4), and the count of free draws. -/

namespace Sys2Proof.Machine

/-! ### Registers -/

/-- The six banks of r13 and r14 (R23): bank 0 is User and System. -/
inductive Bank where
  | usr | fiq | irq | svc | abt | und
deriving DecidableEq, Repr

/-- One value for each of the six banks. -/
structure Banked (α : Type) where
  usr : α
  fiq : α
  irq : α
  svc : α
  abt : α
  und : α
deriving DecidableEq, Repr

/-- The 30 general registers (R20). The program counter, r15, stands beside them in State. -/
structure Regs where
  /-- `G[0..7]`: r0 to r7. -/
  g : Vector Word 8
  /-- `H[0][8..12]`: r8 to r12 of every mode but FIQ. -/
  h : Vector Word 5
  /-- `H[1][8..12]`: r8 to r12 of FIQ mode. -/
  hFiq : Vector Word 5
  /-- `S13[0..5]`: r13 of each bank. -/
  s13 : Banked Word
  /-- `S14[0..5]`: r14 of each bank. -/
  s14 : Banked Word
deriving DecidableEq, Repr

/-- The name of one of the 30 general registers. -/
inductive PReg where
  | g (k : Fin 8)
  | h (k : Fin 5)
  | hFiq (k : Fin 5)
  | s13 (b : Bank)
  | s14 (b : Bank)
deriving DecidableEq, Repr

/-! ### Status registers -/

/-- A status register: the 12 bits that are stored (R24). -/
structure Psr where
  n : Bool
  z : Bool
  c : Bool
  v : Bool
  /-- `irqDisable`. -/
  i : Bool
  /-- `fiqDisable`. -/
  f : Bool
  /-- `thumb`. -/
  t : Bool
  /-- The mode field, which stores any 5-bit value (R27). -/
  m : BitVec 5
deriving DecidableEq, Repr

/-- The modes that have a saved status register (R28). -/
inductive SpsrBank where
  | fiq | irq | svc | abt | und
deriving DecidableEq, Repr

/-- The five saved status registers, `SPSR[1..5]` (R20). -/
structure SpsrFile where
  fiq : Psr
  irq : Psr
  svc : Psr
  abt : Psr
  und : Psr
deriving DecidableEq, Repr

/-! ### Memory -/

/-- The memory: a list of (address, byte) pairs in canonical form (`Memory.wf`), strictly rising in the address, with no
entry equal to what an unlisted address reads as. -/
abbrev Memory := List Host.Cell

/-! ### Transactions (R5) -/

/-- The width of a bus access: 1, 2 or 4 bytes. -/
inductive Width where
  | byte | half | word
deriving DecidableEq, Repr

/-- The two kinds of the Undefined report (R462). -/
inductive UndefKind where
  | decode | trap
deriving DecidableEq, Repr

/-- One transaction that the block issues. -/
inductive Event where
  /-- IFETCH: `Fetch(addr, n)` (R71). -/
  | fetch (addr : Word) (n : Width)
  /-- DATA: `MemRead(addr, n)`, with the address the bus sees (R72). -/
  | read (addr : Word) (n : Width)
  /-- DATA: `MemWrite(addr, n, v)`, with `v` cut to its low 8n bits (R73). -/
  | write (addr : Word) (n : Width) (v : Word)
  /-- UNDEF: `Undefined(kind, A, instr)`, a THUMB `instr` in the low half (R462). -/
  | undefined (kind : UndefKind) (addr : Word) (instr : Word)
  /-- SWI: `SwiService(comment)` (R466). -/
  | swi (comment : BitVec 24)
deriving DecidableEq, Repr

/-! ### The host (R470) -/

/-- The seven exceptions of the architecture (R472). An abort carries the address of the aborted instruction, on which
its link value depends (R471). -/
inductive ArchException where
  | reset
  | undefined
  | softwareInterrupt
  | prefetchAbort (a : Word)
  | dataAbort (a : Word)
  | irq
  | fiq
deriving DecidableEq, Repr

/-- An action of the host that changes state (R470), and the entry sequence composed of them (R471). -/
inductive HostAction where
  | writeReg (i : Fin 15) (v : Word)
  | writeUserReg (i : Fin 15) (v : Word)
  | branch (t : Word)
  | writeCpsr (p : Psr)
  | writeSpsr (b : SpsrBank) (p : Psr)
  | reset
  | enter (e : ArchException)
deriving DecidableEq, Repr

/-- What a software-interrupt service may do (R466): host actions and bus writes. -/
inductive ServiceOp where
  | host (a : HostAction)
  | busWrite (addr : Word) (n : Width) (v : Word)
deriving DecidableEq, Repr

/-- Whose turn it is (R4): one step of the core, or one action of the host at the boundary before it. -/
inductive Turn where
  | core
  | host (a : HostAction)
deriving DecidableEq, Repr

/-! ### The state -/

/-- The state of the machine. -/
structure State where
  regs : Regs
  /-- The stored program counter. Between steps the address of the next instruction; while an instruction executes, the
  address after it, until it branches (R38). -/
  pc : Word
  cpsr : Psr
  spsr : SpsrFile
  /-- The reference memory (R74). -/
  mem : Memory
  /-- The parameters of R7. -/
  params : Params
  /-- The model's own: the transactions issued so far (R5), the latest first. -/
  trace : List Event
  /-- The model's own: the turns to come (R4). When it is empty every turn is the core's: the host of R7 is then empty. -/
  schedule : List Turn
  /-- The model's own: how many times the host has reset the block; it indexes the free values of `Config`. -/
  resets : Nat
deriving DecidableEq, Repr

/-! ### How a step can stop -/

/-- The faults. There are none: the block has no fault of its own (R460: it raises only the Undefined report and the SWI
call, which both end in a next state), every bus access completes (R461), and every address exists (R74). -/
inductive Fault where
deriving DecidableEq, Repr

/-- The refusals: situations to which the spec gives no successor state. -/
inductive Refusal where
  /-- Raised by an arm of `exec` alone, for an instruction that has no meaning yet. Safe. No arm raises it. -/
  | notModelled (mnemonic : String)
  /-- Raised by a 2- or 4-byte data access at an address that is not naturally aligned while the policy is `refuse`
  (R77: "the model gives the instruction no meaning"). Safe. -/
  | misalignedAccess
  /-- Raised by a software interrupt while no service is supplied (R466). Safe. -/
  | noSwiService
  /-- Raised by `step` when the program counter is not a multiple of the instruction size (R38: "no source defines the
  step"). Safe. -/
  | misalignedPc
deriving DecidableEq, Repr

/-! ### Reset -/

/-- A status register with all twelve bits 0. DESIGN CHOICE, unsafe (notes/assumptions/3.md): the value this model
gives a saved status register after reset, where R47 gives none. -/
def Psr.zero : Psr where
  n := false
  z := false
  c := false
  v := false
  i := false
  f := false
  t := false
  m := 0#5

/-- The machine right after reset (R47, R490). M, I, F and T have the values of R47 and the program counter is
`RESET_PC`. The flags, the general registers and the saved status registers are unspecified there; they are 0 here,
DESIGN CHOICE, unsafe (notes/assumptions/3.md). Memory lists nothing. -/
def State.reset : State where
  regs := { g := #v[0, 0, 0, 0, 0, 0, 0, 0], h := #v[0, 0, 0, 0, 0], hFiq := #v[0, 0, 0, 0, 0],
            s13 := ⟨0, 0, 0, 0, 0, 0⟩, s14 := ⟨0, 0, 0, 0, 0, 0⟩ }
  pc := Config.params.resetPc
  cpsr := { n := false, z := false, c := false, v := false, i := true, f := true, t := false, m := 0b10011#5 }
  spsr := ⟨Psr.zero, Psr.zero, Psr.zero, Psr.zero, Psr.zero⟩
  mem := []
  params := Config.params
  trace := []
  schedule := []
  resets := 0

end Sys2Proof.Machine

/-- FREE VALUE (R466: the service is outside the block): what an external software-interrupt service does for a comment
and a state, as host actions and bus writes. Nothing constrains it (notes/assumptions/6.md). -/
opaque Sys2Proof.Config.swiService : BitVec 24 → Sys2Proof.Machine.State → List Sys2Proof.Machine.ServiceOp
end

