-- ==== Sys2Proof/Machine/Memory.lean ====
section
/-! DEFINITION. The reference memory (spec/20_memory.md, R74): one byte at every 32-bit address, held as a canonical
list of (address, byte) pairs; wider accesses are little-endian (R75) and wrap at the top of the address space. -/

namespace Sys2Proof.Machine

/-- What an address that is not listed reads as. DESIGN CHOICE, unsafe (notes/assumptions/4.md): the spec gives memory
no contents, and reading a byte that nothing has written is an ordinary read (R74). -/
def Memory.unlisted : Byte := 0#8

/-- The byte at an address. -/
def Memory.read : Memory → Nat → Byte
  | [], _ => Memory.unlisted
  | (k, b) :: rest, a => if a = k then b else Memory.read rest a

/-- List a byte at its place in the order of addresses. -/
def Memory.insert : Memory → Nat → Byte → Memory
  | [], a, b => [(a, b)]
  | (k, x) :: rest, a, b =>
    if a = k then (a, b) :: rest
    else if a < k then (a, b) :: (k, x) :: rest
    else (k, x) :: Memory.insert rest a b

/-- Take an address out of the list. -/
def Memory.erase : Memory → Nat → Memory
  | [], _ => []
  | (k, x) :: rest, a => if a = k then Memory.erase rest a else (k, x) :: Memory.erase rest a

/-- Write the byte at an address, keeping the canonical form: the byte that an unlisted address reads as is not
listed. -/
def Memory.write (m : Memory) (a : Nat) (b : Byte) : Memory := if b = Memory.unlisted then m.erase a else m.insert a b

/-- Every listed address is at least `lo`, below 2^32 and below the next one, and no entry is the unlisted byte. -/
def Memory.wfFrom (lo : Nat) : Memory → Bool
  | [] => true
  | (k, b) :: rest => decide (lo ≤ k) && decide (k < 2 ^ 32) && decide (b ≠ Memory.unlisted) && Memory.wfFrom (k + 1) rest

/-- The canonical form. -/
def Memory.wf (m : Memory) : Bool := Memory.wfFrom 0 m

/-- The byte at a 32-bit address: the map `B` of R74. -/
def Memory.byte (m : Memory) (a : Word) : Byte := m.read a.toNat

/-- The byte `k` above a 32-bit address; address sums are modulo 2^32 (R74). -/
def Memory.byteAt (m : Memory) (a : Word) (k : Nat) : Byte := m.byte (a + BitVec.ofNat 32 k)

/-- `MemRead(a, 2)` of R74, little-endian. -/
def Memory.read16 (m : Memory) (a : Word) : Half := halfOfBytes (m.byteAt a 0) (m.byteAt a 1)

/-- `MemRead(a, 4)` of R74, little-endian. -/
def Memory.read32 (m : Memory) (a : Word) : Word :=
  wordOfBytes (m.byteAt a 0) (m.byteAt a 1) (m.byteAt a 2) (m.byteAt a 3)

/-- Write byte `k` of `v` at the address `k` above `a`. -/
def Memory.putByte (m : Memory) (a v : Word) (k : Nat) : Memory := m.write (a + BitVec.ofNat 32 k).toNat (byteOf v k)

/-- `MemWrite(a, n, v)` of R74: the low 8n bits of `v`, the least significant byte at the lowest address. -/
def Memory.store (m : Memory) (a : Word) (n : Width) (v : Word) : Memory :=
  match n with
  | .byte => m.putByte a v 0
  | .half => (m.putByte a v 0).putByte a v 1
  | .word => (((m.putByte a v 0).putByte a v 1).putByte a v 2).putByte a v 3

end Sys2Proof.Machine
end

