-- ==== Sys2Proof/Machine/Flags.lean ====
section
/-! DEFINITION. The condition evaluator and the flag-setting arithmetic (spec/40_condition_flags_shifter.md, R140 to
R149), as pure functions. -/

namespace Sys2Proof.Machine

/-- `CondPass(c)` (R140, R142). Code 15 never passes. -/
def condPass (c : CondCode) (p : Psr) : Bool :=
  match c.toNat with
  | 0 => p.z
  | 1 => !p.z
  | 2 => p.c
  | 3 => !p.c
  | 4 => p.n
  | 5 => !p.n
  | 6 => p.v
  | 7 => !p.v
  | 8 => p.c && !p.z
  | 9 => !p.c || p.z
  | 10 => p.n == p.v
  | 11 => p.n != p.v
  | 12 => !p.z && (p.n == p.v)
  | 13 => p.z || (p.n != p.v)
  | 14 => true
  | _ => false

/-- A result and the four flags that go with it. -/
structure Flagged where
  r : Word
  n : Bool
  z : Bool
  c : Bool
  v : Bool
deriving DecidableEq, Repr

/-- `AddFlags(a, b, cin)` (R145): the unbounded sum, cut to 32 bits. -/
def addFlags (a b : Word) (cin : Bool) : Flagged :=
  let u := a.toNat + b.toNat + cin.toNat
  let r := BitVec.ofNat 32 u
  { r := r, n := r.msb, z := decide (r = 0#32), c := decide (2 ^ 32 ≤ u),
    v := decide (a.msb = b.msb) && decide (r.msb ≠ a.msb) }

/-- `SubFlags(a, b, cin)` (R147): the unbounded difference, less one more when the carry is clear. -/
def subFlags (a b : Word) (cin : Bool) : Flagged :=
  let d : Int := a.toNat - b.toNat - (1 - cin.toNat)
  let r := BitVec.ofInt 32 d
  { r := r, n := r.msb, z := decide (r = 0#32), c := decide (0 ≤ d),
    v := decide (a.msb ≠ b.msb) && decide (r.msb ≠ a.msb) }

namespace Psr

/-- N and Z from a 32-bit result; C and V unchanged. -/
def setNZ (p : Psr) (r : Word) : Psr := { p with n := r.msb, z := decide (r = 0#32) }

/-- The logical flags of R149: N and Z from the result, C from the shifter, V unchanged. -/
def setNZC (p : Psr) (r : Word) (c : Bool) : Psr := { p with n := r.msb, z := decide (r = 0#32), c := c }

/-- All four flags from the adder. -/
def setNZCV (p : Psr) (f : Flagged) : Psr := { p with n := f.n, z := f.z, c := f.c, v := f.v }

/-- The flags of a 64-bit product: N and Z from all 64 bits, C cleared, V unchanged (R232 to R235). -/
def setLong (p : Psr) (r : BitVec 64) : Psr := { p with n := r.msb, z := decide (r = 0#64), c := false }

end Psr

/-- The CPSR replaced. -/
def State.withCpsr (s : State) (p : Psr) : State := { s with cpsr := p }

end Sys2Proof.Machine
end

