-- ==== Sys2Proof/Machine/Registers.lean ====
section
/-! DEFINITION. The banked register file and the program counter: the bank functions (spec/10_state.md R22, R23, R28),
the accessors `x[i]`, `xusr[i]` and `WriteReg` (R32 to R35), and `Branch` (R39). -/

namespace Sys2Proof.Machine

/-! ### Modes (R26) -/

/-- The User encoding of the mode field. -/
def modeUsr : BitVec 5 := 0b10000#5
/-- The FIQ encoding. -/
def modeFiq : BitVec 5 := 0b10001#5
/-- The IRQ encoding. -/
def modeIrq : BitVec 5 := 0b10010#5
/-- The Supervisor encoding. -/
def modeSvc : BitVec 5 := 0b10011#5
/-- The Abort encoding. -/
def modeAbt : BitVec 5 := 0b10111#5
/-- The Undefined encoding. -/
def modeUnd : BitVec 5 := 0b11011#5
/-- The System encoding. -/
def modeSys : BitVec 5 := 0b11111#5

/-- `SPSR[m]`: which saved status register a mode has; none for User, System and invalid values (R28). -/
def spsrBank (m : BitVec 5) : Option SpsrBank :=
  if m = modeFiq then some .fiq
  else if m = modeIrq then some .irq
  else if m = modeSvc then some .svc
  else if m = modeAbt then some .abt
  else if m = modeUnd then some .und
  else none

/-- `Bank13(m)`: the bank of r13 and r14; bank 0 for User, System and invalid values (R23, R27). -/
def bank13 (m : BitVec 5) : Bank :=
  if m = modeFiq then .fiq
  else if m = modeIrq then .irq
  else if m = modeSvc then .svc
  else if m = modeAbt then .abt
  else if m = modeUnd then .und
  else .usr

/-- `Bank8(m)` is 1: r8 to r12 are the FIQ ones (R22). -/
def bank8Fiq (m : BitVec 5) : Bool := decide (m = modeFiq)

/-- `Privileged()` of R30, on a mode field. -/
def privilegedMode (m : BitVec 5) : Bool := decide (m ≠ modeUsr)

/-! ### The 30 general registers -/

/-- The value of a bank. -/
def Banked.get {α : Type} (x : Banked α) : Bank → α
  | .usr => x.usr
  | .fiq => x.fiq
  | .irq => x.irq
  | .svc => x.svc
  | .abt => x.abt
  | .und => x.und

/-- Set the value of a bank. -/
def Banked.set {α : Type} (x : Banked α) (b : Bank) (v : α) : Banked α :=
  match b with
  | .usr => { x with usr := v }
  | .fiq => { x with fiq := v }
  | .irq => { x with irq := v }
  | .svc => { x with svc := v }
  | .abt => { x with abt := v }
  | .und => { x with und := v }

/-- The word a physical register holds. -/
def Regs.get (r : Regs) : PReg → Word
  | .g k => r.g[k]
  | .h k => r.h[k]
  | .hFiq k => r.hFiq[k]
  | .s13 b => r.s13.get b
  | .s14 b => r.s14.get b

/-- Write a physical register. -/
def Regs.set (r : Regs) (p : PReg) (v : Word) : Regs :=
  match p with
  | .g k => { r with g := r.g.set k v }
  | .h k => { r with h := r.h.set k v }
  | .hFiq k => { r with hFiq := r.hFiq.set k v }
  | .s13 b => { r with s13 := r.s13.set b v }
  | .s14 b => { r with s14 := r.s14.set b v }

/-- The storage that logical register `i` names in mode `m` (R22, R23); none for r15, the program counter. -/
def physReg (m : BitVec 5) (i : Reg) : Option PReg :=
  if h : i.toNat < 8 then some (.g ⟨i.toNat, h⟩)
  else if h : i.toNat < 13 then
    some (if bank8Fiq m then .hFiq ⟨i.toNat - 8, by omega⟩ else .h ⟨i.toNat - 8, by omega⟩)
  else if i.toNat = 13 then some (.s13 (bank13 m))
  else if i.toNat = 14 then some (.s14 (bank13 m))
  else none

/-! ### Saved status registers -/

/-- A saved status register. -/
def SpsrFile.get (x : SpsrFile) : SpsrBank → Psr
  | .fiq => x.fiq
  | .irq => x.irq
  | .svc => x.svc
  | .abt => x.abt
  | .und => x.und

/-- Write a saved status register. -/
def SpsrFile.set (x : SpsrFile) (b : SpsrBank) (p : Psr) : SpsrFile :=
  match b with
  | .fiq => { x with fiq := p }
  | .irq => { x with irq := p }
  | .svc => { x with svc := p }
  | .abt => { x with abt := p }
  | .und => { x with und := p }

namespace State

/-! ### The program counter -/

/-- `size`: 4 in ARM state, 2 in THUMB state (R40). -/
def size (s : State) : Word := if s.cpsr.t then 2#32 else 4#32

/-- `x[15]` while an instruction executes and before it branches: `A + 2*size`, which is the stored `pc` plus `size`
because the fetch has advanced it (R32). -/
def r15 (s : State) : Word := s.pc + s.size

/-- `A`, the address of the executing instruction, before it branches (R40). -/
def instrAddr (s : State) : Word := s.pc - s.size

/-- `Branch(t)` (R39): the target made aligned for the instruction set now selected. -/
def branch (s : State) (t : Word) : State :=
  { s with pc := if s.cpsr.t then t &&& 0xFFFFFFFE#32 else t &&& 0xFFFFFFFC#32 }

/-- The program counter is a multiple of the instruction size (R38). -/
def pcAligned (s : State) : Bool :=
  if s.cpsr.t then decide (s.pc &&& 1#32 = 0#32) else decide (s.pc &&& 3#32 = 0#32)

/-! ### Register access -/

/-- The word a register reads as, given the storage its number names. -/
def readAt (s : State) : Option PReg → Word
  | some p => s.regs.get p
  | none => s.r15

/-- Write the register a number names; a write of r15 is a branch. -/
def writeAt (s : State) (p : Option PReg) (v : Word) : State :=
  match p with
  | some p => { s with regs := s.regs.set p v }
  | none => s.branch v

/-- `x[i]` (R32). -/
def reg (s : State) (i : Reg) : Word := s.readAt (physReg s.cpsr.m i)

/-- `WriteReg(i, v)` (R33, R34). -/
def setReg (s : State) (i : Reg) (v : Word) : State := s.writeAt (physReg s.cpsr.m i) v

/-- `xusr[i]` (R35): the User-bank copy, in every mode. -/
def userReg (s : State) (i : Reg) : Word := s.readAt (physReg modeUsr i)

/-- `xusr[i] <- v` (R35). -/
def setUserReg (s : State) (i : Reg) (v : Word) : State := s.writeAt (physReg modeUsr i) v

end State

/-- The register number of a 3-bit field of THUMB: r0 to r7. -/
def lowReg (i : LowReg) : Reg := i.setWidth 4

/-- The register number `H : i` of format T5: r0 to r15 (R121). -/
def highReg (hi : Bool) (i : LowReg) : Reg := BitVec.ofBool hi ++ i

/-- r13, the stack pointer. -/
def sp : Reg := 13#4
/-- r14, the link register. -/
def lr : Reg := 14#4
/-- r15, the program counter. -/
def pcReg : Reg := 15#4

end Sys2Proof.Machine
end

