-- ==== Sys2Proof/Machine/Operands.lean ====
section
/-! DEFINITION. The barrel shifter (spec/40_condition_flags_shifter.md, R151 to R164) and every operand form: the second
operand of data processing (R180), and the addresses of the transfers (R250, R264, R290). -/

namespace Sys2Proof.Machine

/-! ### The barrel shifter -/

/-- `fill(v)`: 32 copies of the sign bit (R151). -/
def signFill (v : Word) : Word := if v.msb then 0xFFFFFFFF#32 else 0#32

/-- The shift by an amount from 1 to 31, with the last bit shifted out (R152). -/
def shiftBy (ty : ShiftType) (v : Word) (n : Nat) : Word × Bool :=
  match ty with
  | .lsl => (v <<< n, v.getLsbD (32 - n))
  | .lsr => (v >>> n, v.getLsbD (n - 1))
  | .asr => (v.sshiftRight n, v.getLsbD (n - 1))
  | .ror => (v.rotateRight n, v.getLsbD (n - 1))

/-- `ShiftImm(type, v, n)` (R152): an amount from an instruction field, where 0 means no shift for LSL, 32 for LSR and
ASR, and RRX for ROR. -/
def shiftImm (ty : ShiftType) (v : Word) (n : BitVec 5) (cin : Bool) : Word × Bool :=
  if n = 0#5 then
    match ty with
    | .lsl => (v, cin)
    | .lsr => (0#32, v.msb)
    | .asr => (signFill v, v.msb)
    | .ror => ((BitVec.ofBool cin).setWidth 32 <<< 31 ||| v >>> 1, v.getLsbD 0)
  else shiftBy ty v n.toNat

/-- `ShiftReg(type, v, n)` (R158): an amount from the low byte of a register. -/
def shiftReg (ty : ShiftType) (v : Word) (n : Byte) (cin : Bool) : Word × Bool :=
  if n = 0#8 then (v, cin)
  else if n.toNat < 32 then shiftBy ty v n.toNat
  else
    match ty with
    | .lsl => (0#32, decide (n.toNat = 32) && v.getLsbD 0)
    | .lsr => (0#32, decide (n.toNat = 32) && v.msb)
    | .asr => (signFill v, v.msb)
    | .ror => if n.toNat % 32 = 0 then (v, v.msb) else shiftBy .ror v (n.toNat % 32)

/-! ### The second operand of data processing (R180) -/

/-- The rotated immediate and its carry-out (R107). -/
def rotatedImm (rot : BitVec 4) (imm : BitVec 8) (cin : Bool) : Word × Bool :=
  let b : Word := imm.setWidth 32
  if rot = 0#4 then (b, cin)
  else
    let r := b.rotateRight (2 * rot.toNat)
    (r, r.msb)

/-- Format A1: the immediate operand. -/
def op2Imm (rot : BitVec 4) (imm : BitVec 8) (s : State) : Word × Bool := rotatedImm rot imm s.cpsr.c

/-- Format A2: a register shifted by an immediate. -/
def op2Reg (amt : BitVec 5) (ty : ShiftType) (rm : Reg) (s : State) : Word × Bool :=
  shiftImm ty (s.reg rm) amt s.cpsr.c

/-- Format A3: a register shifted by the low byte of a register. -/
def op2Rsr (rs : Reg) (ty : ShiftType) (rm : Reg) (s : State) : Word × Bool :=
  shiftReg ty (s.reg rm) ((s.reg rs).setWidth 8) s.cpsr.c

/-! ### Addresses of single transfers (R250, R264) -/

/-- The address a transfer accesses, and the address its base register is updated with. -/
structure Indexed where
  addr : Word
  ea : Word
deriving DecidableEq, Repr

/-- `base + offset` or `base - offset`, by the U bit. -/
def offsetBy (u : Bool) (base off : Word) : Word := if u then base + off else base - off

/-- Pre-indexed (P = 1): the access is at the computed address. -/
def preIndexed (u : Bool) (base off : Word) : Indexed := ⟨offsetBy u base off, offsetBy u base off⟩

/-- Post-indexed (P = 0): the access is at the base. -/
def postIndexed (u : Bool) (base off : Word) : Indexed := ⟨base, offsetBy u base off⟩

/-- The shifted register offset of format A13; the carry-out is discarded (R109). -/
def regOffset (amt : BitVec 5) (ty : ShiftType) (rm : Reg) (s : State) : Word :=
  (shiftImm ty (s.reg rm) amt s.cpsr.c).1

/-- The split 8-bit offset of format A12 (R108). -/
def splitOffset (hi lo : BitVec 4) : Word := (hi ++ lo).setWidth 32

/-! ### Register lists (R290) -/

/-- The sixteen register numbers in ascending order. -/
def allRegs : List Reg := [0, 1, 2, 3, 4, 5, 6, 7, 8, 9, 10, 11, 12, 13, 14, 15]

/-- The registers of a 16-bit list, in ascending order. -/
def regsOf (list : BitVec 16) : List Reg := allRegs.filter fun r => list.getLsbD r.toNat

/-- The registers of an 8-bit list of THUMB, in ascending order. -/
def lowRegsOf (list : BitVec 8) : List Reg := regsOf (list.setWidth 16)

/-- `4*n` bytes. -/
def wordsSize (n : Nat) : Word := BitVec.ofNat 32 (4 * n)

/-- `start`: the address of the lowest-numbered register of a block transfer of `n` registers (R290). -/
def blockStart (p u : Bool) (base : Word) (n : Nat) : Word :=
  if u then (if p then base + 4#32 else base)
  else if p then base - wordsSize n else base - wordsSize n + 4#32

/-- `final`: the address after all transfers (R290). -/
def blockFinal (u : Bool) (base : Word) (n : Nat) : Word := offsetBy u base (wordsSize n)

/-! ### Immediates of branches and of THUMB (R110, R123) -/

/-- The ARM branch offset: 24 bits, sign-extended, times 4. -/
def branchOffset24 (off : BitVec 24) : Word := (off ++ 0b00#2).signExtend 32

/-- The THUMB conditional branch offset: 8 bits, sign-extended, times 2. -/
def branchOffset8 (off : BitVec 8) : Word := (off ++ 0b0#1).signExtend 32

/-- The THUMB branch offset: 11 bits, sign-extended, times 2. -/
def branchOffset11 (off : BitVec 11) : Word := (off ++ 0b0#1).signExtend 32

/-- The high part of the THUMB long branch offset: 11 bits, sign-extended, times 2^12. -/
def longOffsetHigh (off : BitVec 11) : Word := (off ++ 0x000#12).signExtend 32

/-- The low part of the THUMB long branch offset: 11 bits, zero-extended, times 2. -/
def longOffsetLow (off : BitVec 11) : Word := (off ++ 0b0#1).setWidth 32

/-- An unsigned field times 4. -/
def times4 {n : Nat} (v : BitVec n) : Word := (v ++ 0b00#2).setWidth 32

/-- An unsigned field times 2. -/
def times2 {n : Nat} (v : BitVec n) : Word := (v ++ 0b0#1).setWidth 32

end Sys2Proof.Machine
end

