-- ==== Sys2Proof/Machine/Ops.lean ====
section
/-! DEFINITION. The operations the meanings share: the image of a status register and its transfer
(spec/10_state.md R25, R28, R29), the bus accesses and their alignment policy (spec/20_memory.md R71 to R78), the
condition gate (R40), the Undefined report (spec/60_exceptions.md R462), and taking an exception (R471, R472). -/

namespace Sys2Proof.Machine

/-- How an instruction, or a step, ends. -/
abbrev Result := Host.Outcome State Fault Refusal

/-! ### Status registers -/

namespace Psr

/-- `PsrToWord(p)` (R25). -/
def toWord (p : Psr) : Word :=
  BitVec.ofBool p.n ++ BitVec.ofBool p.z ++ BitVec.ofBool p.c ++ BitVec.ofBool p.v ++ 0#20 ++ BitVec.ofBool p.i ++
    BitVec.ofBool p.f ++ BitVec.ofBool p.t ++ p.m

/-- The flags field of a status register, from bits 31 to 28 of a word (R201). -/
def withFlagsOf (p : Psr) (w : Word) : Psr :=
  { p with n := w.getLsbD 31, z := w.getLsbD 30, c := w.getLsbD 29, v := w.getLsbD 28 }

/-- The control field of a status register, from bits 7 to 0 of a word (R201). -/
def withControlOf (p : Psr) (w : Word) : Psr :=
  { p with i := w.getLsbD 7, f := w.getLsbD 6, t := w.getLsbD 5, m := w.setWidth 5 }

/-- `WordToPsr(w)` (R25). -/
def ofWord (w : Word) : Psr := (zero.withFlagsOf w).withControlOf w

end Psr

namespace State

/-- `Privileged()` (R30). -/
def privileged (s : State) : Bool := privilegedMode s.cpsr.m

/-- `ReadSPSR()` (R28). -/
def readSpsr (s : State) : Psr :=
  match spsrBank s.cpsr.m with
  | some b => s.spsr.get b
  | none => s.cpsr

/-- `WriteSPSR(p)` (R28). -/
def writeSpsr (s : State) (p : Psr) : State :=
  match spsrBank s.cpsr.m with
  | some b => { s with spsr := s.spsr.set b p }
  | none => s

/-- `ReloadCPSR()` (R29): the status half of a return from exception (R474). -/
def reloadCpsr (s : State) : State :=
  match spsrBank s.cpsr.m with
  | some b => { s with cpsr := s.spsr.get b }
  | none => s

/-- Record a transaction (R5). -/
def emit (s : State) (e : Event) : State := { s with trace := e :: s.trace }

end State

/-! ### The condition gate (R40) -/

/-- An ARM instruction whose condition fails changes nothing. -/
def whenPassed (c : CondCode) (s : State) (o : Result) : Result := if condPass c s.cpsr then o else .next s

/-! ### Bus accesses -/

/-- The address with the low bits that lie inside the access cleared. -/
def busAddr (a : Word) (n : Width) : Word :=
  match n with
  | .byte => a
  | .half => a &&& 0xFFFFFFFE#32
  | .word => a &&& 0xFFFFFFFC#32

/-- Natural alignment (R76). -/
def naturallyAligned (a : Word) (n : Width) : Bool := decide (busAddr a n = a)

/-- An access is admitted if it is aligned or the policy is `rotate` (R77, R78). -/
def State.admits (s : State) (a : Word) (n : Width) : Bool :=
  naturallyAligned a n || decide (s.params.misaligned = .rotate)

/-- The instruction that makes an access has a meaning only where the access is admitted (R77). -/
def whenAdmitted (s : State) (a : Word) (n : Width) (o : Result) : Result :=
  if s.admits a n then o else .refused .misalignedAccess

/-- The five kinds of load: the width of the access, and how its value is extended to 32 bits (R72). -/
inductive LoadKind where
  | word | byte | half | signedByte | signedHalf
deriving DecidableEq, Repr

/-- The width of a load (R80). -/
def LoadKind.width : LoadKind → Width
  | .word => .word
  | .byte | .signedByte => .byte
  | .half | .signedHalf => .half

/-- A word rotated right by the byte offset of a misaligned address (R78); unchanged at an aligned one. -/
def rotateBy (a v : Word) : Word := v.rotateRight (8 * (a &&& 3#32).toNat)

/-- The value that a load puts into its register. At an aligned address it is the extended value of the access (R72,
R74); at a misaligned one, that of the table of R78. -/
def loadValue (m : Memory) (k : LoadKind) (a : Word) : Word :=
  match k with
  | .word => rotateBy a (m.read32 (busAddr a .word))
  | .byte => (m.byte a).setWidth 32
  | .half => ((m.read16 (busAddr a .half)).setWidth 32).rotateRight (8 * (a &&& 1#32).toNat)
  | .signedByte => (m.byte a).signExtend 32
  | .signedHalf =>
    if a &&& 1#32 = 0#32 then (m.read16 a).signExtend 32 else (m.byte a).signExtend 32

/-- The transaction of a load: a signed halfword at an odd address reads one byte (R78). -/
def loadEvent (k : LoadKind) (a : Word) : Event :=
  match k with
  | .word => .read (busAddr a .word) .word
  | .byte | .signedByte => .read a .byte
  | .half => .read (busAddr a .half) .half
  | .signedHalf => if a &&& 1#32 = 0#32 then .read a .half else .read a .byte

/-- The low 8n bits of a word: what a narrow store sends (R73). -/
def truncateTo (n : Width) (v : Word) : Word :=
  match n with
  | .byte => v &&& 0xFF#32
  | .half => v &&& 0xFFFF#32
  | .word => v

namespace State

/-- The read of a load. -/
def load (s : State) (k : LoadKind) (a : Word) : State := s.emit (loadEvent k a)

/-- `MemWrite(a, n, v)` (R73), at a misaligned address with the low bits ignored (R78). -/
def store (s : State) (a : Word) (n : Width) (v : Word) : State :=
  { s with mem := s.mem.store (busAddr a n) n v
           trace := .write (busAddr a n) n (truncateTo n v) :: s.trace }

/-- The word that a block transfer loads: `MemRead` at the address with the low bits cleared, without rotation (R78). -/
def blockWord (s : State) (a : Word) : Word := s.mem.read32 (busAddr a .word)

end State

/-! ### The Undefined report (R462) -/

/-- `raise Undefined(kind)`: one report, with the address and the bits of the instruction. Nothing else changes. -/
def reportUndefined (kind : UndefKind) (instr : Word) (s : State) : State :=
  s.emit (.undefined kind s.instrAddr instr)

/-! ### Taking an exception (R471, R472) -/

namespace ArchException

/-- `m(e)` (R472). -/
def mode : ArchException → BitVec 5
  | .reset => modeSvc
  | .undefined => modeUnd
  | .softwareInterrupt => modeSvc
  | .prefetchAbort _ => modeAbt
  | .dataAbort _ => modeAbt
  | .irq => modeIrq
  | .fiq => modeFiq

/-- `v(e)` (R472). -/
def vector : ArchException → Word
  | .reset => 0x00000000#32
  | .undefined => 0x00000004#32
  | .softwareInterrupt => 0x00000008#32
  | .prefetchAbort _ => 0x0000000C#32
  | .dataAbort _ => 0x00000010#32
  | .irq => 0x00000018#32
  | .fiq => 0x0000001C#32

/-- `link(e)` (R471), `p` being the program counter at the boundary. -/
def link (p : Word) : ArchException → Word
  | .reset => 0#32
  | .undefined => p
  | .softwareInterrupt => p
  | .prefetchAbort a => a + 4#32
  | .dataAbort a => a + 8#32
  | .irq => p + 4#32
  | .fiq => p + 4#32

/-- The exceptions that mask FIQ (R471). -/
def masksFiq : ArchException → Bool
  | .reset => true
  | .fiq => true
  | _ => false

end ArchException

/-- The status register that an entry leaves: the mode of the exception, ARM state, IRQ masked (R471). -/
def entryPsr (e : ArchException) (p : Psr) : Psr :=
  { p with m := e.mode, t := false, i := true, f := p.f || e.masksFiq }

/-- `HostExceptionEntry(e)` (R471): the status register changes; but for reset, the new mode's saved status register
takes the old status and its r14 the link value; then a branch to the vector. -/
def takeException (e : ArchException) (s : State) : State :=
  let s' := s.withCpsr (entryPsr e s.cpsr)
  let saved := if e = .reset then s' else (s'.writeSpsr s.cpsr).setReg lr (e.link s.pc)
  saved.branch e.vector

/-- The return from an exception (R474): the status register from the saved one, then a branch masked by the restored
T bit. In a mode without a saved status register it only branches. -/
def returnFromException (target : Word) (s : State) : State := s.reloadCpsr.branch target

end Sys2Proof.Machine
end

