-- ==== Sys2Proof/Machine/LoadStore.lean ====
section
/-! DEFINITION. ARM single data transfer (spec/43_arm_load_store.md R250 to R262): word and byte loads and stores, and
their forced-user forms. -/

namespace Sys2Proof.Machine

/-! ### The shared transfers -/

/-- The value of a transferred register: in a forced-user form, of its User-bank copy (R258). -/
def transferReg (user : Bool) (rd : Reg) (s : State) : Word := if user then s.userReg rd else s.reg rd

/-- Write a transferred register: in a forced-user form, its User-bank copy (R258). -/
def setTransferReg (user : Bool) (rd : Reg) (v : Word) (s : State) : State :=
  if user then s.setUserReg rd v else s.setReg rd v

/-- The write-back of the base register (R250). -/
def writeBack (wb : Bool) (rn : Reg) (ea : Word) (s : State) : State := if wb then s.setReg rn ea else s

/-- A load: read memory, then write the base back, then write the loaded value (R251). -/
def loadTransfer (k : LoadKind) (user wb : Bool) (rn rd : Reg) (x : Indexed) (s : State) : Result :=
  whenAdmitted s x.addr k.width
    (.next (setTransferReg user rd (loadValue s.mem k x.addr) (writeBack wb rn x.ea (s.load k x.addr))))

/-- A store: read the register, then write memory, then write the base back (R251). -/
def storeTransfer (n : Width) (user wb : Bool) (rn rd : Reg) (x : Indexed) (s : State) : Result :=
  whenAdmitted s x.addr n (.next (writeBack wb rn x.ea (s.store x.addr n (transferReg user rd s))))

/-! ### The meanings -/

/-- LDR, immediate offset, pre-indexed, format A13 (R252, R250). -/
def execLdrImmPre (c : CondCode) (u w : Bool) (rn rd : Reg) (off : BitVec 12) (s : State) : Result :=
  whenPassed c s (loadTransfer .word false w rn rd (preIndexed u (s.reg rn) (off.setWidth 32)) s)

/-- LDR, immediate offset, post-indexed, format A13 (R252, R250). -/
def execLdrImmPost (c : CondCode) (u : Bool) (rn rd : Reg) (off : BitVec 12) (s : State) : Result :=
  whenPassed c s (loadTransfer .word false true rn rd (postIndexed u (s.reg rn) (off.setWidth 32)) s)

/-- LDRT, immediate offset, format A13 (R259, R258). -/
def execLdrtImm (c : CondCode) (u : Bool) (rn rd : Reg) (off : BitVec 12) (s : State) : Result :=
  whenPassed c s (loadTransfer .word true true rn rd (postIndexed u (s.reg rn) (off.setWidth 32)) s)

/-- LDR, register offset, pre-indexed, format A13 (R252, R250). -/
def execLdrRegPre (c : CondCode) (u w : Bool) (rn rd : Reg) (amt : BitVec 5) (ty : ShiftType) (rm : Reg) (s : State) : Result :=
  whenPassed c s (loadTransfer .word false w rn rd (preIndexed u (s.reg rn) (regOffset amt ty rm s)) s)

/-- LDR, register offset, post-indexed, format A13 (R252, R250). -/
def execLdrRegPost (c : CondCode) (u : Bool) (rn rd : Reg) (amt : BitVec 5) (ty : ShiftType) (rm : Reg) (s : State) : Result :=
  whenPassed c s (loadTransfer .word false true rn rd (postIndexed u (s.reg rn) (regOffset amt ty rm s)) s)

/-- LDRT, register offset, format A13 (R259, R258). -/
def execLdrtReg (c : CondCode) (u : Bool) (rn rd : Reg) (amt : BitVec 5) (ty : ShiftType) (rm : Reg) (s : State) : Result :=
  whenPassed c s (loadTransfer .word true true rn rd (postIndexed u (s.reg rn) (regOffset amt ty rm s)) s)

/-- LDRB, immediate offset, pre-indexed, format A13 (R253, R250). -/
def execLdrbImmPre (c : CondCode) (u w : Bool) (rn rd : Reg) (off : BitVec 12) (s : State) : Result :=
  whenPassed c s (loadTransfer .byte false w rn rd (preIndexed u (s.reg rn) (off.setWidth 32)) s)

/-- LDRB, immediate offset, post-indexed, format A13 (R253, R250). -/
def execLdrbImmPost (c : CondCode) (u : Bool) (rn rd : Reg) (off : BitVec 12) (s : State) : Result :=
  whenPassed c s (loadTransfer .byte false true rn rd (postIndexed u (s.reg rn) (off.setWidth 32)) s)

/-- LDRBT, immediate offset, format A13 (R260, R258). -/
def execLdrbtImm (c : CondCode) (u : Bool) (rn rd : Reg) (off : BitVec 12) (s : State) : Result :=
  whenPassed c s (loadTransfer .byte true true rn rd (postIndexed u (s.reg rn) (off.setWidth 32)) s)

/-- LDRB, register offset, pre-indexed, format A13 (R253, R250). -/
def execLdrbRegPre (c : CondCode) (u w : Bool) (rn rd : Reg) (amt : BitVec 5) (ty : ShiftType) (rm : Reg) (s : State) : Result :=
  whenPassed c s (loadTransfer .byte false w rn rd (preIndexed u (s.reg rn) (regOffset amt ty rm s)) s)

/-- LDRB, register offset, post-indexed, format A13 (R253, R250). -/
def execLdrbRegPost (c : CondCode) (u : Bool) (rn rd : Reg) (amt : BitVec 5) (ty : ShiftType) (rm : Reg) (s : State) : Result :=
  whenPassed c s (loadTransfer .byte false true rn rd (postIndexed u (s.reg rn) (regOffset amt ty rm s)) s)

/-- LDRBT, register offset, format A13 (R260, R258). -/
def execLdrbtReg (c : CondCode) (u : Bool) (rn rd : Reg) (amt : BitVec 5) (ty : ShiftType) (rm : Reg) (s : State) : Result :=
  whenPassed c s (loadTransfer .byte true true rn rd (postIndexed u (s.reg rn) (regOffset amt ty rm s)) s)

/-- STR, immediate offset, pre-indexed, format A13 (R254, R250). -/
def execStrImmPre (c : CondCode) (u w : Bool) (rn rd : Reg) (off : BitVec 12) (s : State) : Result :=
  whenPassed c s (storeTransfer .word false w rn rd (preIndexed u (s.reg rn) (off.setWidth 32)) s)

/-- STR, immediate offset, post-indexed, format A13 (R254, R250). -/
def execStrImmPost (c : CondCode) (u : Bool) (rn rd : Reg) (off : BitVec 12) (s : State) : Result :=
  whenPassed c s (storeTransfer .word false true rn rd (postIndexed u (s.reg rn) (off.setWidth 32)) s)

/-- STRT, immediate offset, format A13 (R261, R258). -/
def execStrtImm (c : CondCode) (u : Bool) (rn rd : Reg) (off : BitVec 12) (s : State) : Result :=
  whenPassed c s (storeTransfer .word true true rn rd (postIndexed u (s.reg rn) (off.setWidth 32)) s)

/-- STR, register offset, pre-indexed, format A13 (R254, R250). -/
def execStrRegPre (c : CondCode) (u w : Bool) (rn rd : Reg) (amt : BitVec 5) (ty : ShiftType) (rm : Reg) (s : State) : Result :=
  whenPassed c s (storeTransfer .word false w rn rd (preIndexed u (s.reg rn) (regOffset amt ty rm s)) s)

/-- STR, register offset, post-indexed, format A13 (R254, R250). -/
def execStrRegPost (c : CondCode) (u : Bool) (rn rd : Reg) (amt : BitVec 5) (ty : ShiftType) (rm : Reg) (s : State) : Result :=
  whenPassed c s (storeTransfer .word false true rn rd (postIndexed u (s.reg rn) (regOffset amt ty rm s)) s)

/-- STRT, register offset, format A13 (R261, R258). -/
def execStrtReg (c : CondCode) (u : Bool) (rn rd : Reg) (amt : BitVec 5) (ty : ShiftType) (rm : Reg) (s : State) : Result :=
  whenPassed c s (storeTransfer .word true true rn rd (postIndexed u (s.reg rn) (regOffset amt ty rm s)) s)

/-- STRB, immediate offset, pre-indexed, format A13 (R255, R250). -/
def execStrbImmPre (c : CondCode) (u w : Bool) (rn rd : Reg) (off : BitVec 12) (s : State) : Result :=
  whenPassed c s (storeTransfer .byte false w rn rd (preIndexed u (s.reg rn) (off.setWidth 32)) s)

/-- STRB, immediate offset, post-indexed, format A13 (R255, R250). -/
def execStrbImmPost (c : CondCode) (u : Bool) (rn rd : Reg) (off : BitVec 12) (s : State) : Result :=
  whenPassed c s (storeTransfer .byte false true rn rd (postIndexed u (s.reg rn) (off.setWidth 32)) s)

/-- STRBT, immediate offset, format A13 (R262, R258). -/
def execStrbtImm (c : CondCode) (u : Bool) (rn rd : Reg) (off : BitVec 12) (s : State) : Result :=
  whenPassed c s (storeTransfer .byte true true rn rd (postIndexed u (s.reg rn) (off.setWidth 32)) s)

/-- STRB, register offset, pre-indexed, format A13 (R255, R250). -/
def execStrbRegPre (c : CondCode) (u w : Bool) (rn rd : Reg) (amt : BitVec 5) (ty : ShiftType) (rm : Reg) (s : State) : Result :=
  whenPassed c s (storeTransfer .byte false w rn rd (preIndexed u (s.reg rn) (regOffset amt ty rm s)) s)

/-- STRB, register offset, post-indexed, format A13 (R255, R250). -/
def execStrbRegPost (c : CondCode) (u : Bool) (rn rd : Reg) (amt : BitVec 5) (ty : ShiftType) (rm : Reg) (s : State) : Result :=
  whenPassed c s (storeTransfer .byte false true rn rd (postIndexed u (s.reg rn) (regOffset amt ty rm s)) s)

/-- STRBT, register offset, format A13 (R262, R258). -/
def execStrbtReg (c : CondCode) (u : Bool) (rn rd : Reg) (amt : BitVec 5) (ty : ShiftType) (rm : Reg) (s : State) : Result :=
  whenPassed c s (storeTransfer .byte true true rn rd (postIndexed u (s.reg rn) (regOffset amt ty rm s)) s)

end Sys2Proof.Machine
end

