-- ==== Sys2Proof/Machine/BlockTransfer.lean ====
section
/-! DEFINITION. ARM block transfer (spec/44_arm_block_branch_system.md R290 to R294), over loops that the THUMB block
transfers share. -/

namespace Sys2Proof.Machine

/-! ### The loops -/

/-- Load registers from ascending addresses, in order, into the User bank or the current one (R291). -/
def loadRegs (user : Bool) : List Reg → Word → State → State
  | [], _, s => s
  | r :: rs, a, s =>
    loadRegs user rs (a + 4#32) (setTransferReg user r (s.blockWord a) (s.load .word a))

/-- The value of a register that a block transfer stores. `x15` is the value r15 reads as, which is that of the start
of the instruction even if a write-back has branched (R32: `A + 2*size`). -/
def storedReg (user : Bool) (x15 : Word) (r : Reg) (s : State) : Word :=
  if r = pcReg then x15 else transferReg user r s

/-- Store registers to ascending addresses, in order, from the User bank or the current one (R292). -/
def storeRegs (user : Bool) (x15 : Word) : List Reg → Word → State → State
  | [], _, s => s
  | r :: rs, a, s => storeRegs user x15 rs (a + 4#32) (s.store a .word (storedReg user x15 r s))

/-- A store multiple: the base is written back after the first store; with an empty list, at the end (R292, R412). -/
def storeMultiple (user wb : Bool) (rn : Reg) (start final : Word) (rs : List Reg) (s : State) : State :=
  match rs with
  | [] => writeBack wb rn final s
  | r :: rest =>
    storeRegs user s.r15 rest (start + 4#32)
      (writeBack wb rn final (s.store start .word (storedReg user s.r15 r s)))

/-- The load of r15 that ends a load multiple: with the S bit the status register is reloaded, then a branch (R291). -/
def loadPc (reload : Bool) (a : Word) (s : State) : State :=
  let s' := s.load .word a
  if reload then returnFromException (s.blockWord a) s' else s'.branch (s.blockWord a)

/-- A load multiple: the base is written back, then r0 to r14 are loaded, then r15 (R291). -/
def loadMultiple (ub wb : Bool) (rn : Reg) (start final : Word) (list : BitVec 16) (s : State) : State :=
  let low := regsOf (list &&& 0x7FFF#16)
  let pcInList := list.getLsbD 15
  let s' := loadRegs (ub && !pcInList) low start (writeBack wb rn final s)
  if pcInList then loadPc ub (start + wordsSize low.length) s' else s'

/-! ### The meanings -/

/-- LDM, format A14 (R291). -/
def execLdm (c : CondCode) (p u ub w : Bool) (rn : Reg) (list : BitVec 16) (s : State) : Result :=
  whenPassed c s
    (let n := (regsOf list).length
     let start := blockStart p u (s.reg rn) n
     whenAdmitted s start .word (.next (loadMultiple ub w rn start (blockFinal u (s.reg rn) n) list s)))

/-- STM, format A14 (R292). -/
def execStm (c : CondCode) (p u ub w : Bool) (rn : Reg) (list : BitVec 16) (s : State) : Result :=
  whenPassed c s
    (let n := (regsOf list).length
     let start := blockStart p u (s.reg rn) n
     whenAdmitted s start .word (.next (storeMultiple ub w rn start (blockFinal u (s.reg rn) n) (regsOf list) s)))

end Sys2Proof.Machine
end

