-- ==== Sys2Proof/Machine/HostInterface.lean ====
section
/-! DEFINITION. The host interface (spec/60_exceptions.md R470), the reset by the host (spec/70_reset_and_hazards.md
R490), and the software-interrupt service (R466). -/

namespace Sys2Proof.Machine

/-! ### What the host reads (R470) -/

/-- The register number of a host access: r0 to r14. -/
def hostReg (i : Fin 15) : Reg := BitVec.ofNat 4 i.val

/-- `HostReadReg(i)`. -/
def hostReadReg (s : State) (i : Fin 15) : Word := s.reg (hostReg i)

/-- `HostReadUserReg(i)`. -/
def hostReadUserReg (s : State) (i : Fin 15) : Word := s.userReg (hostReg i)

/-- `HostReadPC()`: the stored program counter. -/
def hostReadPc (s : State) : Word := s.pc

/-- `HostReadCPSR()`. -/
def hostReadCpsr (s : State) : Psr := s.cpsr

/-- `HostReadSPSR(b)`. -/
def hostReadSpsr (s : State) (b : SpsrBank) : Psr := s.spsr.get b

/-! ### Reset by the host (R490) -/

/-- A free status register: twelve free bits, from number `k` on. -/
def freePsr (n k : Nat) : Psr where
  n := Config.freeBit n k
  z := Config.freeBit n (k + 1)
  c := Config.freeBit n (k + 2)
  v := Config.freeBit n (k + 3)
  i := Config.freeBit n (k + 4)
  f := Config.freeBit n (k + 5)
  t := Config.freeBit n (k + 6)
  m := BitVec.ofBool (Config.freeBit n (k + 7)) ++ BitVec.ofBool (Config.freeBit n (k + 8)) ++
    BitVec.ofBool (Config.freeBit n (k + 9)) ++ BitVec.ofBool (Config.freeBit n (k + 10)) ++
    BitVec.ofBool (Config.freeBit n (k + 11))

/-- Free general registers. -/
def freeRegs (n : Nat) : Regs where
  g := Vector.ofFn fun k => Config.freeWord n k.val
  h := Vector.ofFn fun k => Config.freeWord n (8 + k.val)
  hFiq := Vector.ofFn fun k => Config.freeWord n (13 + k.val)
  s13 := ⟨Config.freeWord n 18, Config.freeWord n 19, Config.freeWord n 20, Config.freeWord n 21, Config.freeWord n 22,
    Config.freeWord n 23⟩
  s14 := ⟨Config.freeWord n 24, Config.freeWord n 25, Config.freeWord n 26, Config.freeWord n 27, Config.freeWord n 28,
    Config.freeWord n 29⟩

/-- The CPSR after a reset (R490): the flags are free. -/
def resetPsr (n : Nat) : Psr :=
  { freePsr n 0 with i := true, f := true, t := false, m := modeSvc }

/-- `HostReset()` (R490). It makes no bus access, raises no event and clears no memory (R492). -/
def hostReset (s : State) : State :=
  { s with regs := freeRegs s.resets
           pc := s.params.resetPc
           cpsr := resetPsr s.resets
           spsr := ⟨freePsr s.resets 12, freePsr s.resets 24, freePsr s.resets 36, freePsr s.resets 48,
             freePsr s.resets 60⟩
           resets := s.resets + 1 }

/-! ### What the host does (R470) -/

/-- One host action. DESIGN CHOICE (notes/assumptions/18.md; safe over all schedules, unsafe for the schedule of a
masking host): an entry is taken whatever I and F are. R468 says that I = 1 masks the delivery of IRQ and F = 1 that
of FIQ, and leaves the masking to the host, which here is whoever writes the schedule. -/
def hostAct (a : HostAction) (s : State) : State :=
  match a with
  | .writeReg i v => s.setReg (hostReg i) v
  | .writeUserReg i v => s.setUserReg (hostReg i) v
  | .branch t => s.branch t
  | .writeCpsr p => s.withCpsr p
  | .writeSpsr b p => { s with spsr := s.spsr.set b p }
  | .reset => hostReset s
  | .enter e => takeException e s

/-! ### The software-interrupt service (R466) -/

/-- One thing a service does: a host action, or a bus write at its natural alignment. -/
def serviceAct (o : ServiceOp) (s : State) : State :=
  match o with
  | .host a => hostAct a s
  | .busWrite a n v => s.store a n v

/-- What a service does, in order. -/
def serviceActs : List ServiceOp → State → State
  | [], s => s
  | o :: os, s => serviceActs os (serviceAct o s)

/-- `raise SWI(comment)` (R466): one SWI transaction, in which the service acts. The block itself changes nothing.
Without a service the instruction has no successor. -/
def softwareInterrupt (comment : BitVec 24) (s : State) : Result :=
  match s.params.swi with
  | .absent => .refused .noSwiService
  | .vectored => .next (takeException .softwareInterrupt (s.emit (.swi comment)))
  | .external => .next (serviceActs (Config.swiService comment s) (s.emit (.swi comment)))

end Sys2Proof.Machine
end

