-- ==== Sys2Proof/Machine/Branch.lean ====
section
/-! DEFINITION. ARM branches, the software interrupt, and the encodings that report Undefined
(spec/44_arm_block_branch_system.md R296 to R303, spec/43_arm_load_store.md R269). -/

namespace Sys2Proof.Machine

/-- The target of B and BL (R296). -/
def branchTarget24 (off : BitVec 24) (s : State) : Word := s.r15 + branchOffset24 off

/-- Branch and exchange: T from bit 0 of the target, then the branch, masked by the new T (R298, R364). -/
def branchExchange (v : Word) (s : State) : State := (s.withCpsr { s.cpsr with t := v.getLsbD 0 }).branch v

/-- An ARM word that reports Undefined, if its condition passes (R303, R463). -/
def undefinedArm (kind : UndefKind) (w : Word) (s : State) : Result :=
  whenPassed (w.extractLsb' 28 4) s (.next (reportUndefined kind w s))

/-- B, format A15 (R296). -/
def execB (c : CondCode) (off : BitVec 24) (s : State) : Result :=
  whenPassed c s (.next (s.branch (branchTarget24 off s)))

/-- BL, format A15: r14 takes `A + 4` (R297). -/
def execBl (c : CondCode) (off : BitVec 24) (s : State) : Result :=
  whenPassed c s (.next ((s.setReg lr (s.instrAddr + 4#32)).branch (branchTarget24 off s)))

/-- BX, format A7 (R298). -/
def execBx (c : CondCode) (rm : Reg) (s : State) : Result := whenPassed c s (.next (branchExchange (s.reg rm) s))

/-- SWI, format A16 (R300). -/
def execSwi (c : CondCode) (comment : BitVec 24) (s : State) : Result := whenPassed c s (softwareInterrupt comment s)

/-- The gaps of the multiply, swap and halfword space, and the undefined halfword forms (R303, R269). -/
def execUndMulSpace (w : BitVec 32) (s : State) : Result := undefinedArm .decode w s

/-- The neighbourhood of MRS and MSR (R303). -/
def execUndTestReg (w : BitVec 32) (s : State) : Result := undefinedArm .decode w s

/-- The neighbourhood of BX (R303). -/
def execUndTestRsr (w : BitVec 32) (s : State) : Result := undefinedArm .decode w s

/-- The neighbourhood of the immediate MSR (R303). -/
def execUndTestImm (w : BitVec 32) (s : State) : Result := undefinedArm .decode w s

/-- The architecture's undefined space (R303). -/
def execUndClass011 (w : BitVec 32) (s : State) : Result := undefinedArm .decode w s

/-- Coprocessor data transfer (R302). -/
def execUndCopTransfer (w : BitVec 32) (s : State) : Result := undefinedArm .trap w s

/-- Coprocessor operation and register transfer (R302). -/
def execUndCopOp (w : BitVec 32) (s : State) : Result := undefinedArm .trap w s

end Sys2Proof.Machine
end

