-- ==== Sys2Proof/Machine/DataProcessing.lean ====
section
/-! DEFINITION. ARM data processing (spec/41_arm_data_processing.md R180 to R199): sixteen operations in three operand
forms. The templates of R181 and R182 stand first, then one shared operation for each instruction, then the 48
meanings. -/

namespace Sys2Proof.Machine

/-! ### The templates -/

/-- The reload that a flag-setting instruction with destination r15 makes (R183). -/
def dpReload (sf : Bool) (rd : Reg) (s : State) : State := if sf && decide (rd = pcReg) then s.reloadCpsr else s

/-- `DPLogical(S, Rd, r, sc)` (R181). -/
def dpLogical (sf : Bool) (rd : Reg) (r : Word) (sc : Bool) (s : State) : State :=
  (dpReload sf rd (if sf then s.withCpsr (s.cpsr.setNZC r sc) else s)).setReg rd r

/-- `DPArith(S, Rd, f)` (R182). -/
def dpArith (sf : Bool) (rd : Reg) (f : Flagged) (s : State) : State :=
  (dpReload sf rd (if sf then s.withCpsr (s.cpsr.setNZCV f) else s)).setReg rd f.r

/-- The test template with the logical flags (R182). -/
def dpTestLogical (r : Word) (sc : Bool) (s : State) : State := s.withCpsr (s.cpsr.setNZC r sc)

/-- The test template with the flags of the adder (R182). -/
def dpTestArith (f : Flagged) (s : State) : State := s.withCpsr (s.cpsr.setNZCV f)

/-! ### The sixteen operations, over a second operand and its shifter carry -/

/-- AND (R184). -/
def opAnd (sf : Bool) (rn rd : Reg) (op : Word × Bool) (s : State) : State :=
  dpLogical sf rd (s.reg rn &&& op.1) op.2 s

/-- EOR (R185). -/
def opEor (sf : Bool) (rn rd : Reg) (op : Word × Bool) (s : State) : State :=
  dpLogical sf rd (s.reg rn ^^^ op.1) op.2 s

/-- ORR (R196). -/
def opOrr (sf : Bool) (rn rd : Reg) (op : Word × Bool) (s : State) : State :=
  dpLogical sf rd (s.reg rn ||| op.1) op.2 s

/-- MOV (R197). -/
def opMov (sf : Bool) (rd : Reg) (op : Word × Bool) (s : State) : State :=
  dpLogical sf rd (op.1) op.2 s

/-- BIC (R198). -/
def opBic (sf : Bool) (rn rd : Reg) (op : Word × Bool) (s : State) : State :=
  dpLogical sf rd (s.reg rn &&& ~~~op.1) op.2 s

/-- MVN (R199). -/
def opMvn (sf : Bool) (rd : Reg) (op : Word × Bool) (s : State) : State :=
  dpLogical sf rd (~~~op.1) op.2 s

/-- SUB (R186). -/
def opSub (sf : Bool) (rn rd : Reg) (op : Word × Bool) (s : State) : State :=
  dpArith sf rd (subFlags (s.reg rn) op.1 true) s

/-- RSB (R187). -/
def opRsb (sf : Bool) (rn rd : Reg) (op : Word × Bool) (s : State) : State :=
  dpArith sf rd (subFlags op.1 (s.reg rn) true) s

/-- ADD (R188). -/
def opAdd (sf : Bool) (rn rd : Reg) (op : Word × Bool) (s : State) : State :=
  dpArith sf rd (addFlags (s.reg rn) op.1 false) s

/-- ADC (R189). -/
def opAdc (sf : Bool) (rn rd : Reg) (op : Word × Bool) (s : State) : State :=
  dpArith sf rd (addFlags (s.reg rn) op.1 s.cpsr.c) s

/-- SBC (R190). -/
def opSbc (sf : Bool) (rn rd : Reg) (op : Word × Bool) (s : State) : State :=
  dpArith sf rd (subFlags (s.reg rn) op.1 s.cpsr.c) s

/-- RSC (R191). -/
def opRsc (sf : Bool) (rn rd : Reg) (op : Word × Bool) (s : State) : State :=
  dpArith sf rd (subFlags op.1 (s.reg rn) s.cpsr.c) s

/-- TST (R192). -/
def opTst (rn : Reg) (op : Word × Bool) (s : State) : State := dpTestLogical (s.reg rn &&& op.1) op.2 s

/-- TEQ (R193). -/
def opTeq (rn : Reg) (op : Word × Bool) (s : State) : State := dpTestLogical (s.reg rn ^^^ op.1) op.2 s

/-- CMP (R194). -/
def opCmp (rn : Reg) (op : Word × Bool) (s : State) : State := dpTestArith (subFlags (s.reg rn) op.1 true) s

/-- CMN (R195). -/
def opCmn (rn : Reg) (op : Word × Bool) (s : State) : State := dpTestArith (addFlags (s.reg rn) op.1 false) s

/-! ### The meanings -/

/-- AND, immediate operand, format A1 (R184, R180). -/
def execAndImm (c : CondCode) (sf : Bool) (rn rd : Reg) (rot : BitVec 4) (imm : BitVec 8) (s : State) : Result :=
  whenPassed c s (.next (opAnd sf rn rd (op2Imm rot imm s) s))

/-- AND, register operand, shift by immediate, format A2 (R184, R180). -/
def execAndReg (c : CondCode) (sf : Bool) (rn rd : Reg) (amt : BitVec 5) (ty : ShiftType) (rm : Reg) (s : State) : Result :=
  whenPassed c s (.next (opAnd sf rn rd (op2Reg amt ty rm s) s))

/-- AND, register operand, shift by register, format A3 (R184, R180). -/
def execAndRsr (c : CondCode) (sf : Bool) (rn rd rs : Reg) (ty : ShiftType) (rm : Reg) (s : State) : Result :=
  whenPassed c s (.next (opAnd sf rn rd (op2Rsr rs ty rm s) s))

/-- EOR, immediate operand, format A1 (R185, R180). -/
def execEorImm (c : CondCode) (sf : Bool) (rn rd : Reg) (rot : BitVec 4) (imm : BitVec 8) (s : State) : Result :=
  whenPassed c s (.next (opEor sf rn rd (op2Imm rot imm s) s))

/-- EOR, register operand, shift by immediate, format A2 (R185, R180). -/
def execEorReg (c : CondCode) (sf : Bool) (rn rd : Reg) (amt : BitVec 5) (ty : ShiftType) (rm : Reg) (s : State) : Result :=
  whenPassed c s (.next (opEor sf rn rd (op2Reg amt ty rm s) s))

/-- EOR, register operand, shift by register, format A3 (R185, R180). -/
def execEorRsr (c : CondCode) (sf : Bool) (rn rd rs : Reg) (ty : ShiftType) (rm : Reg) (s : State) : Result :=
  whenPassed c s (.next (opEor sf rn rd (op2Rsr rs ty rm s) s))

/-- SUB, immediate operand, format A1 (R186, R180). -/
def execSubImm (c : CondCode) (sf : Bool) (rn rd : Reg) (rot : BitVec 4) (imm : BitVec 8) (s : State) : Result :=
  whenPassed c s (.next (opSub sf rn rd (op2Imm rot imm s) s))

/-- SUB, register operand, shift by immediate, format A2 (R186, R180). -/
def execSubReg (c : CondCode) (sf : Bool) (rn rd : Reg) (amt : BitVec 5) (ty : ShiftType) (rm : Reg) (s : State) : Result :=
  whenPassed c s (.next (opSub sf rn rd (op2Reg amt ty rm s) s))

/-- SUB, register operand, shift by register, format A3 (R186, R180). -/
def execSubRsr (c : CondCode) (sf : Bool) (rn rd rs : Reg) (ty : ShiftType) (rm : Reg) (s : State) : Result :=
  whenPassed c s (.next (opSub sf rn rd (op2Rsr rs ty rm s) s))

/-- RSB, immediate operand, format A1 (R187, R180). -/
def execRsbImm (c : CondCode) (sf : Bool) (rn rd : Reg) (rot : BitVec 4) (imm : BitVec 8) (s : State) : Result :=
  whenPassed c s (.next (opRsb sf rn rd (op2Imm rot imm s) s))

/-- RSB, register operand, shift by immediate, format A2 (R187, R180). -/
def execRsbReg (c : CondCode) (sf : Bool) (rn rd : Reg) (amt : BitVec 5) (ty : ShiftType) (rm : Reg) (s : State) : Result :=
  whenPassed c s (.next (opRsb sf rn rd (op2Reg amt ty rm s) s))

/-- RSB, register operand, shift by register, format A3 (R187, R180). -/
def execRsbRsr (c : CondCode) (sf : Bool) (rn rd rs : Reg) (ty : ShiftType) (rm : Reg) (s : State) : Result :=
  whenPassed c s (.next (opRsb sf rn rd (op2Rsr rs ty rm s) s))

/-- ADD, immediate operand, format A1 (R188, R180). -/
def execAddImm (c : CondCode) (sf : Bool) (rn rd : Reg) (rot : BitVec 4) (imm : BitVec 8) (s : State) : Result :=
  whenPassed c s (.next (opAdd sf rn rd (op2Imm rot imm s) s))

/-- ADD, register operand, shift by immediate, format A2 (R188, R180). -/
def execAddReg (c : CondCode) (sf : Bool) (rn rd : Reg) (amt : BitVec 5) (ty : ShiftType) (rm : Reg) (s : State) : Result :=
  whenPassed c s (.next (opAdd sf rn rd (op2Reg amt ty rm s) s))

/-- ADD, register operand, shift by register, format A3 (R188, R180). -/
def execAddRsr (c : CondCode) (sf : Bool) (rn rd rs : Reg) (ty : ShiftType) (rm : Reg) (s : State) : Result :=
  whenPassed c s (.next (opAdd sf rn rd (op2Rsr rs ty rm s) s))

/-- ADC, immediate operand, format A1 (R189, R180). -/
def execAdcImm (c : CondCode) (sf : Bool) (rn rd : Reg) (rot : BitVec 4) (imm : BitVec 8) (s : State) : Result :=
  whenPassed c s (.next (opAdc sf rn rd (op2Imm rot imm s) s))

/-- ADC, register operand, shift by immediate, format A2 (R189, R180). -/
def execAdcReg (c : CondCode) (sf : Bool) (rn rd : Reg) (amt : BitVec 5) (ty : ShiftType) (rm : Reg) (s : State) : Result :=
  whenPassed c s (.next (opAdc sf rn rd (op2Reg amt ty rm s) s))

/-- ADC, register operand, shift by register, format A3 (R189, R180). -/
def execAdcRsr (c : CondCode) (sf : Bool) (rn rd rs : Reg) (ty : ShiftType) (rm : Reg) (s : State) : Result :=
  whenPassed c s (.next (opAdc sf rn rd (op2Rsr rs ty rm s) s))

/-- SBC, immediate operand, format A1 (R190, R180). -/
def execSbcImm (c : CondCode) (sf : Bool) (rn rd : Reg) (rot : BitVec 4) (imm : BitVec 8) (s : State) : Result :=
  whenPassed c s (.next (opSbc sf rn rd (op2Imm rot imm s) s))

/-- SBC, register operand, shift by immediate, format A2 (R190, R180). -/
def execSbcReg (c : CondCode) (sf : Bool) (rn rd : Reg) (amt : BitVec 5) (ty : ShiftType) (rm : Reg) (s : State) : Result :=
  whenPassed c s (.next (opSbc sf rn rd (op2Reg amt ty rm s) s))

/-- SBC, register operand, shift by register, format A3 (R190, R180). -/
def execSbcRsr (c : CondCode) (sf : Bool) (rn rd rs : Reg) (ty : ShiftType) (rm : Reg) (s : State) : Result :=
  whenPassed c s (.next (opSbc sf rn rd (op2Rsr rs ty rm s) s))

/-- RSC, immediate operand, format A1 (R191, R180). -/
def execRscImm (c : CondCode) (sf : Bool) (rn rd : Reg) (rot : BitVec 4) (imm : BitVec 8) (s : State) : Result :=
  whenPassed c s (.next (opRsc sf rn rd (op2Imm rot imm s) s))

/-- RSC, register operand, shift by immediate, format A2 (R191, R180). -/
def execRscReg (c : CondCode) (sf : Bool) (rn rd : Reg) (amt : BitVec 5) (ty : ShiftType) (rm : Reg) (s : State) : Result :=
  whenPassed c s (.next (opRsc sf rn rd (op2Reg amt ty rm s) s))

/-- RSC, register operand, shift by register, format A3 (R191, R180). -/
def execRscRsr (c : CondCode) (sf : Bool) (rn rd rs : Reg) (ty : ShiftType) (rm : Reg) (s : State) : Result :=
  whenPassed c s (.next (opRsc sf rn rd (op2Rsr rs ty rm s) s))

/-- TST, immediate operand, format A1 (R192, R180). -/
def execTstImm (c : CondCode) (rn : Reg) (_ign rot : BitVec 4) (imm : BitVec 8) (s : State) : Result :=
  whenPassed c s (.next (opTst rn (op2Imm rot imm s) s))

/-- TST, register operand, shift by immediate, format A2 (R192, R180). -/
def execTstReg (c : CondCode) (rn : Reg) (_ign : BitVec 4) (amt : BitVec 5) (ty : ShiftType) (rm : Reg) (s : State) : Result :=
  whenPassed c s (.next (opTst rn (op2Reg amt ty rm s) s))

/-- TST, register operand, shift by register, format A3 (R192, R180). -/
def execTstRsr (c : CondCode) (rn : Reg) (_ign : BitVec 4) (rs : Reg) (ty : ShiftType) (rm : Reg) (s : State) : Result :=
  whenPassed c s (.next (opTst rn (op2Rsr rs ty rm s) s))

/-- TEQ, immediate operand, format A1 (R193, R180). -/
def execTeqImm (c : CondCode) (rn : Reg) (_ign rot : BitVec 4) (imm : BitVec 8) (s : State) : Result :=
  whenPassed c s (.next (opTeq rn (op2Imm rot imm s) s))

/-- TEQ, register operand, shift by immediate, format A2 (R193, R180). -/
def execTeqReg (c : CondCode) (rn : Reg) (_ign : BitVec 4) (amt : BitVec 5) (ty : ShiftType) (rm : Reg) (s : State) : Result :=
  whenPassed c s (.next (opTeq rn (op2Reg amt ty rm s) s))

/-- TEQ, register operand, shift by register, format A3 (R193, R180). -/
def execTeqRsr (c : CondCode) (rn : Reg) (_ign : BitVec 4) (rs : Reg) (ty : ShiftType) (rm : Reg) (s : State) : Result :=
  whenPassed c s (.next (opTeq rn (op2Rsr rs ty rm s) s))

/-- CMP, immediate operand, format A1 (R194, R180). -/
def execCmpImm (c : CondCode) (rn : Reg) (_ign rot : BitVec 4) (imm : BitVec 8) (s : State) : Result :=
  whenPassed c s (.next (opCmp rn (op2Imm rot imm s) s))

/-- CMP, register operand, shift by immediate, format A2 (R194, R180). -/
def execCmpReg (c : CondCode) (rn : Reg) (_ign : BitVec 4) (amt : BitVec 5) (ty : ShiftType) (rm : Reg) (s : State) : Result :=
  whenPassed c s (.next (opCmp rn (op2Reg amt ty rm s) s))

/-- CMP, register operand, shift by register, format A3 (R194, R180). -/
def execCmpRsr (c : CondCode) (rn : Reg) (_ign : BitVec 4) (rs : Reg) (ty : ShiftType) (rm : Reg) (s : State) : Result :=
  whenPassed c s (.next (opCmp rn (op2Rsr rs ty rm s) s))

/-- CMN, immediate operand, format A1 (R195, R180). -/
def execCmnImm (c : CondCode) (rn : Reg) (_ign rot : BitVec 4) (imm : BitVec 8) (s : State) : Result :=
  whenPassed c s (.next (opCmn rn (op2Imm rot imm s) s))

/-- CMN, register operand, shift by immediate, format A2 (R195, R180). -/
def execCmnReg (c : CondCode) (rn : Reg) (_ign : BitVec 4) (amt : BitVec 5) (ty : ShiftType) (rm : Reg) (s : State) : Result :=
  whenPassed c s (.next (opCmn rn (op2Reg amt ty rm s) s))

/-- CMN, register operand, shift by register, format A3 (R195, R180). -/
def execCmnRsr (c : CondCode) (rn : Reg) (_ign : BitVec 4) (rs : Reg) (ty : ShiftType) (rm : Reg) (s : State) : Result :=
  whenPassed c s (.next (opCmn rn (op2Rsr rs ty rm s) s))

/-- ORR, immediate operand, format A1 (R196, R180). -/
def execOrrImm (c : CondCode) (sf : Bool) (rn rd : Reg) (rot : BitVec 4) (imm : BitVec 8) (s : State) : Result :=
  whenPassed c s (.next (opOrr sf rn rd (op2Imm rot imm s) s))

/-- ORR, register operand, shift by immediate, format A2 (R196, R180). -/
def execOrrReg (c : CondCode) (sf : Bool) (rn rd : Reg) (amt : BitVec 5) (ty : ShiftType) (rm : Reg) (s : State) : Result :=
  whenPassed c s (.next (opOrr sf rn rd (op2Reg amt ty rm s) s))

/-- ORR, register operand, shift by register, format A3 (R196, R180). -/
def execOrrRsr (c : CondCode) (sf : Bool) (rn rd rs : Reg) (ty : ShiftType) (rm : Reg) (s : State) : Result :=
  whenPassed c s (.next (opOrr sf rn rd (op2Rsr rs ty rm s) s))

/-- MOV, immediate operand, format A1 (R197, R180). -/
def execMovImm (c : CondCode) (sf : Bool) (_ign : BitVec 4) (rd : Reg) (rot : BitVec 4) (imm : BitVec 8) (s : State) : Result :=
  whenPassed c s (.next (opMov sf rd (op2Imm rot imm s) s))

/-- MOV, register operand, shift by immediate, format A2 (R197, R180). -/
def execMovReg (c : CondCode) (sf : Bool) (_ign : BitVec 4) (rd : Reg) (amt : BitVec 5) (ty : ShiftType) (rm : Reg) (s : State) : Result :=
  whenPassed c s (.next (opMov sf rd (op2Reg amt ty rm s) s))

/-- MOV, register operand, shift by register, format A3 (R197, R180). -/
def execMovRsr (c : CondCode) (sf : Bool) (_ign : BitVec 4) (rd rs : Reg) (ty : ShiftType) (rm : Reg) (s : State) : Result :=
  whenPassed c s (.next (opMov sf rd (op2Rsr rs ty rm s) s))

/-- BIC, immediate operand, format A1 (R198, R180). -/
def execBicImm (c : CondCode) (sf : Bool) (rn rd : Reg) (rot : BitVec 4) (imm : BitVec 8) (s : State) : Result :=
  whenPassed c s (.next (opBic sf rn rd (op2Imm rot imm s) s))

/-- BIC, register operand, shift by immediate, format A2 (R198, R180). -/
def execBicReg (c : CondCode) (sf : Bool) (rn rd : Reg) (amt : BitVec 5) (ty : ShiftType) (rm : Reg) (s : State) : Result :=
  whenPassed c s (.next (opBic sf rn rd (op2Reg amt ty rm s) s))

/-- BIC, register operand, shift by register, format A3 (R198, R180). -/
def execBicRsr (c : CondCode) (sf : Bool) (rn rd rs : Reg) (ty : ShiftType) (rm : Reg) (s : State) : Result :=
  whenPassed c s (.next (opBic sf rn rd (op2Rsr rs ty rm s) s))

/-- MVN, immediate operand, format A1 (R199, R180). -/
def execMvnImm (c : CondCode) (sf : Bool) (_ign : BitVec 4) (rd : Reg) (rot : BitVec 4) (imm : BitVec 8) (s : State) : Result :=
  whenPassed c s (.next (opMvn sf rd (op2Imm rot imm s) s))

/-- MVN, register operand, shift by immediate, format A2 (R199, R180). -/
def execMvnReg (c : CondCode) (sf : Bool) (_ign : BitVec 4) (rd : Reg) (amt : BitVec 5) (ty : ShiftType) (rm : Reg) (s : State) : Result :=
  whenPassed c s (.next (opMvn sf rd (op2Reg amt ty rm s) s))

/-- MVN, register operand, shift by register, format A3 (R199, R180). -/
def execMvnRsr (c : CondCode) (sf : Bool) (_ign : BitVec 4) (rd rs : Reg) (ty : ShiftType) (rm : Reg) (s : State) : Result :=
  whenPassed c s (.next (opMvn sf rd (op2Rsr rs ty rm s) s))

end Sys2Proof.Machine
end

