-- ==== Sys2Proof/Machine/HalfTransfer.lean ====
section
/-! DEFINITION. ARM halfword and signed transfer (spec/43_arm_load_store.md R264 to R268). The undefined encodings of
the family (R269) are with the other undefined encodings, in Branch.lean. -/

namespace Sys2Proof.Machine

/-- STRH, pre-indexed, register offset, format A11 (R268, R264). -/
def execStrhRegPre (c : CondCode) (u w : Bool) (rn rd : Reg) (_ign : BitVec 4) (rm : Reg) (s : State) : Result :=
  whenPassed c s (storeTransfer .half false w rn rd (preIndexed u (s.reg rn) (s.reg rm)) s)

/-- STRH, post-indexed, register offset, format A11 (R268, R264). -/
def execStrhRegPost (c : CondCode) (u : Bool) (rn rd : Reg) (_ign : BitVec 4) (rm : Reg) (s : State) : Result :=
  whenPassed c s (storeTransfer .half false true rn rd (postIndexed u (s.reg rn) (s.reg rm)) s)

/-- STRH, pre-indexed, immediate offset, format A12 (R268, R264). -/
def execStrhImmPre (c : CondCode) (u w : Bool) (rn rd : Reg) (hi lo : BitVec 4) (s : State) : Result :=
  whenPassed c s (storeTransfer .half false w rn rd (preIndexed u (s.reg rn) (splitOffset hi lo)) s)

/-- STRH, post-indexed, immediate offset, format A12 (R268, R264). -/
def execStrhImmPost (c : CondCode) (u : Bool) (rn rd : Reg) (hi lo : BitVec 4) (s : State) : Result :=
  whenPassed c s (storeTransfer .half false true rn rd (postIndexed u (s.reg rn) (splitOffset hi lo)) s)

/-- LDRH, pre-indexed, register offset, format A11 (R265, R264). -/
def execLdrhRegPre (c : CondCode) (u w : Bool) (rn rd : Reg) (_ign : BitVec 4) (rm : Reg) (s : State) : Result :=
  whenPassed c s (loadTransfer .half false w rn rd (preIndexed u (s.reg rn) (s.reg rm)) s)

/-- LDRH, post-indexed, register offset, format A11 (R265, R264). -/
def execLdrhRegPost (c : CondCode) (u : Bool) (rn rd : Reg) (_ign : BitVec 4) (rm : Reg) (s : State) : Result :=
  whenPassed c s (loadTransfer .half false true rn rd (postIndexed u (s.reg rn) (s.reg rm)) s)

/-- LDRH, pre-indexed, immediate offset, format A12 (R265, R264). -/
def execLdrhImmPre (c : CondCode) (u w : Bool) (rn rd : Reg) (hi lo : BitVec 4) (s : State) : Result :=
  whenPassed c s (loadTransfer .half false w rn rd (preIndexed u (s.reg rn) (splitOffset hi lo)) s)

/-- LDRH, post-indexed, immediate offset, format A12 (R265, R264). -/
def execLdrhImmPost (c : CondCode) (u : Bool) (rn rd : Reg) (hi lo : BitVec 4) (s : State) : Result :=
  whenPassed c s (loadTransfer .half false true rn rd (postIndexed u (s.reg rn) (splitOffset hi lo)) s)

/-- LDRSB, pre-indexed, register offset, format A11 (R266, R264). -/
def execLdrsbRegPre (c : CondCode) (u w : Bool) (rn rd : Reg) (_ign : BitVec 4) (rm : Reg) (s : State) : Result :=
  whenPassed c s (loadTransfer .signedByte false w rn rd (preIndexed u (s.reg rn) (s.reg rm)) s)

/-- LDRSB, post-indexed, register offset, format A11 (R266, R264). -/
def execLdrsbRegPost (c : CondCode) (u : Bool) (rn rd : Reg) (_ign : BitVec 4) (rm : Reg) (s : State) : Result :=
  whenPassed c s (loadTransfer .signedByte false true rn rd (postIndexed u (s.reg rn) (s.reg rm)) s)

/-- LDRSB, pre-indexed, immediate offset, format A12 (R266, R264). -/
def execLdrsbImmPre (c : CondCode) (u w : Bool) (rn rd : Reg) (hi lo : BitVec 4) (s : State) : Result :=
  whenPassed c s (loadTransfer .signedByte false w rn rd (preIndexed u (s.reg rn) (splitOffset hi lo)) s)

/-- LDRSB, post-indexed, immediate offset, format A12 (R266, R264). -/
def execLdrsbImmPost (c : CondCode) (u : Bool) (rn rd : Reg) (hi lo : BitVec 4) (s : State) : Result :=
  whenPassed c s (loadTransfer .signedByte false true rn rd (postIndexed u (s.reg rn) (splitOffset hi lo)) s)

/-- LDRSH, pre-indexed, register offset, format A11 (R267, R264). -/
def execLdrshRegPre (c : CondCode) (u w : Bool) (rn rd : Reg) (_ign : BitVec 4) (rm : Reg) (s : State) : Result :=
  whenPassed c s (loadTransfer .signedHalf false w rn rd (preIndexed u (s.reg rn) (s.reg rm)) s)

/-- LDRSH, post-indexed, register offset, format A11 (R267, R264). -/
def execLdrshRegPost (c : CondCode) (u : Bool) (rn rd : Reg) (_ign : BitVec 4) (rm : Reg) (s : State) : Result :=
  whenPassed c s (loadTransfer .signedHalf false true rn rd (postIndexed u (s.reg rn) (s.reg rm)) s)

/-- LDRSH, pre-indexed, immediate offset, format A12 (R267, R264). -/
def execLdrshImmPre (c : CondCode) (u w : Bool) (rn rd : Reg) (hi lo : BitVec 4) (s : State) : Result :=
  whenPassed c s (loadTransfer .signedHalf false w rn rd (preIndexed u (s.reg rn) (splitOffset hi lo)) s)

/-- LDRSH, post-indexed, immediate offset, format A12 (R267, R264). -/
def execLdrshImmPost (c : CondCode) (u : Bool) (rn rd : Reg) (hi lo : BitVec 4) (s : State) : Result :=
  whenPassed c s (loadTransfer .signedHalf false true rn rd (postIndexed u (s.reg rn) (splitOffset hi lo)) s)

end Sys2Proof.Machine
end

