-- ==== Sys2Proof/Machine/Multiply.lean ====
section
/-! DEFINITION. ARM multiply, multiply long and single data swap (spec/42_arm_multiply_swap.md R230 to R238). -/

namespace Sys2Proof.Machine

/-- The 32-bit multiplies: N and Z from the result, C cleared, V unchanged, then the register (R230, R231). -/
def mulResult (sf : Bool) (rd : Reg) (r : Word) (s : State) : State :=
  (if sf then s.withCpsr (s.cpsr.setNZC r false) else s).setReg rd r

/-- The 64-bit multiplies: the flags from all 64 bits, then RdLo, then RdHi (R232 to R235, R238). -/
def mulLongResult (sf : Bool) (rdHi rdLo : Reg) (r : BitVec 64) (s : State) : State :=
  ((if sf then s.withCpsr (s.cpsr.setLong r) else s).setReg rdLo (r.setWidth 32)).setReg rdHi
    (r.extractLsb' 32 32)

/-- The unsigned 64-bit product (R232). -/
def productU (a b : Word) : BitVec 64 := BitVec.ofNat 64 (a.toNat * b.toNat)

/-- The signed 64-bit product (R234). -/
def productS (a b : Word) : BitVec 64 := BitVec.ofInt 64 (a.toInt * b.toInt)

/-- `acc`: the 64-bit pattern in RdHi and RdLo (R233). -/
def longAcc (rdHi rdLo : Reg) (s : State) : BitVec 64 := s.reg rdHi ++ s.reg rdLo

/-- A swap: read, then write at the same address, then the register (R236, R237). -/
def swapWith (k : LoadKind) (rn rd rm : Reg) (s : State) : Result :=
  whenAdmitted s (s.reg rn) k.width
    (.next (((s.load k (s.reg rn)).store (s.reg rn) k.width (s.reg rm)).setReg rd (loadValue s.mem k (s.reg rn))))

/-- MUL, format A8 (R230). -/
def execMul (c : CondCode) (sf : Bool) (rd : Reg) (_ign : BitVec 4) (rs rm : Reg) (s : State) : Result :=
  whenPassed c s (.next (mulResult sf rd (s.reg rm * s.reg rs) s))

/-- MLA, format A8 (R231). -/
def execMla (c : CondCode) (sf : Bool) (rd rn rs rm : Reg) (s : State) : Result :=
  whenPassed c s (.next (mulResult sf rd (s.reg rm * s.reg rs + s.reg rn) s))

/-- UMULL, format A9 (R232). -/
def execUmull (c : CondCode) (sf : Bool) (rdHi rdLo rs rm : Reg) (s : State) : Result :=
  whenPassed c s (.next (mulLongResult sf rdHi rdLo (productU (s.reg rm) (s.reg rs)) s))

/-- UMLAL, format A9 (R233). -/
def execUmlal (c : CondCode) (sf : Bool) (rdHi rdLo rs rm : Reg) (s : State) : Result :=
  whenPassed c s (.next (mulLongResult sf rdHi rdLo (productU (s.reg rm) (s.reg rs) + longAcc rdHi rdLo s) s))

/-- SMULL, format A9 (R234). -/
def execSmull (c : CondCode) (sf : Bool) (rdHi rdLo rs rm : Reg) (s : State) : Result :=
  whenPassed c s (.next (mulLongResult sf rdHi rdLo (productS (s.reg rm) (s.reg rs)) s))

/-- SMLAL, format A9 (R235). -/
def execSmlal (c : CondCode) (sf : Bool) (rdHi rdLo rs rm : Reg) (s : State) : Result :=
  whenPassed c s (.next (mulLongResult sf rdHi rdLo (productS (s.reg rm) (s.reg rs) + longAcc rdHi rdLo s) s))

/-- SWP, format A10 (R236). -/
def execSwp (c : CondCode) (rn rd : Reg) (_ign : BitVec 4) (rm : Reg) (s : State) : Result :=
  whenPassed c s (swapWith .word rn rd rm s)

/-- SWPB, format A10 (R237). -/
def execSwpb (c : CondCode) (rn rd : Reg) (_ign : BitVec 4) (rm : Reg) (s : State) : Result :=
  whenPassed c s (swapWith .byte rn rd rm s)

end Sys2Proof.Machine
end

