-- ==== Sys2Proof/Machine/PsrTransfer.lean ====
section
/-! DEFINITION. PSR transfer: MRS and MSR (spec/41_arm_data_processing.md R200 to R203). -/

namespace Sys2Proof.Machine

/-- The word MRS reads (R200). -/
def psrRead (p : Bool) (s : State) : Word := if p then s.readSpsr.toWord else s.cpsr.toWord

/-- The fields of a status register that MSR writes: the flags and the control bits, each if it is selected (R201). -/
def psrFields (ff fc : Bool) (v : Word) (p : Psr) : Psr :=
  let p := if ff then p.withFlagsOf v else p
  if fc then p.withControlOf v else p

/-- `PsrWrite(P, f, c, v)` (R201). The control bits of the CPSR are written only in a privileged mode; a saved status
register only where the mode has one. -/
def psrWrite (p ff fc : Bool) (v : Word) (s : State) : State :=
  if p then
    match spsrBank s.cpsr.m with
    | some b => { s with spsr := s.spsr.set b (psrFields ff fc v (s.spsr.get b)) }
    | none => s
  else s.withCpsr (psrFields ff (fc && s.privileged) v s.cpsr)

/-- MRS, format A4 (R200). -/
def execMrs (c : CondCode) (p : Bool) (rd : Reg) (s : State) : Result :=
  whenPassed c s (.next (s.setReg rd (psrRead p s)))

/-- MSR, register operand, format A5 (R202). -/
def execMsrReg (c : CondCode) (p ff : Bool) (_ign : BitVec 2) (fc : Bool) (rm : Reg) (s : State) : Result :=
  whenPassed c s (.next (psrWrite p ff fc (s.reg rm) s))

/-- MSR, immediate operand, format A6 (R203). -/
def execMsrImm (c : CondCode) (p ff : Bool) (_ign : BitVec 2) (fc : Bool) (rot : BitVec 4) (imm : BitVec 8) (s : State) : Result :=
  whenPassed c s (.next (psrWrite p ff fc (rotatedImm rot imm s.cpsr.c).1 s))

end Sys2Proof.Machine
end

