-- ==== Sys2Proof/Machine/ThumbAlu.lean ====
section
/-! DEFINITION. THUMB shifts, arithmetic, ALU operations, high-register operations and address computation
(spec/45_thumb_alu.md R330 to R368). -/

namespace Sys2Proof.Machine

/-! ### The shared forms -/

/-- The value of one of r0 to r7. -/
def State.low (s : State) (i : LowReg) : Word := s.reg (lowReg i)

/-- Write one of r0 to r7. -/
def State.setLow (s : State) (i : LowReg) (v : Word) : State := s.setReg (lowReg i) v

/-- A logical result: N and Z from it, C and V unchanged (R344). -/
def thumbLogical (rd : LowReg) (r : Word) (s : State) : State := (s.withCpsr (s.cpsr.setNZ r)).setLow rd r

/-- A shifted result: N and Z from it, C from the shifter, V unchanged (R344). -/
def thumbShift (rd : LowReg) (x : Word × Bool) (s : State) : State :=
  (s.withCpsr (s.cpsr.setNZC x.1 x.2)).setLow rd x.1

/-- An arithmetic result: all four flags from the adder (R344). -/
def thumbArith (rd : LowReg) (f : Flagged) (s : State) : State := (s.withCpsr (s.cpsr.setNZCV f)).setLow rd f.r

/-- A comparison: all four flags from the adder, and no register (R338). -/
def thumbCompare (f : Flagged) (s : State) : State := s.withCpsr (s.cpsr.setNZCV f)

/-- The amount of a shift by a register: its low byte (R347). -/
def shiftByte (v : Word) : Byte := v.setWidth 8

/-- `x[15] AND 0xFFFFFFFC`: the base of the PC-relative forms (R365, R390). -/
def pcBase (s : State) : Word := s.r15 &&& 0xFFFFFFFC#32

/-! ### The meanings -/

/-- LSL by an immediate, format T1 (R330). -/
def execTLslImm (amt : BitVec 5) (rs rd : LowReg) (s : State) : Result :=
  .next (thumbShift rd (shiftImm .lsl (s.low rs) amt s.cpsr.c) s)

/-- LSR by an immediate, format T1 (R331). -/
def execTLsrImm (amt : BitVec 5) (rs rd : LowReg) (s : State) : Result :=
  .next (thumbShift rd (shiftImm .lsr (s.low rs) amt s.cpsr.c) s)

/-- ASR by an immediate, format T1 (R332). -/
def execTAsrImm (amt : BitVec 5) (rs rd : LowReg) (s : State) : Result :=
  .next (thumbShift rd (shiftImm .asr (s.low rs) amt s.cpsr.c) s)

/-- ADD of registers, format T2 (R333). -/
def execTAddReg (rn rs rd : LowReg) (s : State) : Result :=
  .next (thumbArith rd (addFlags (s.low rs) (s.low rn) false) s)

/-- SUB of registers, format T2 (R334). -/
def execTSubReg (rn rs rd : LowReg) (s : State) : Result :=
  .next (thumbArith rd (subFlags (s.low rs) (s.low rn) true) s)

/-- ADD of a 3-bit immediate, format T2 (R335). -/
def execTAddImm3 (imm : BitVec 3) (rs rd : LowReg) (s : State) : Result :=
  .next (thumbArith rd (addFlags (s.low rs) (imm.setWidth 32) false) s)

/-- SUB of a 3-bit immediate, format T2 (R336). -/
def execTSubImm3 (imm : BitVec 3) (rs rd : LowReg) (s : State) : Result :=
  .next (thumbArith rd (subFlags (s.low rs) (imm.setWidth 32) true) s)

/-- MOV of an 8-bit immediate, format T3 (R337). -/
def execTMovImm8 (rd : LowReg) (imm : BitVec 8) (s : State) : Result := .next (thumbLogical rd (imm.setWidth 32) s)

/-- CMP with an 8-bit immediate, format T3 (R338). -/
def execTCmpImm8 (rd : LowReg) (imm : BitVec 8) (s : State) : Result :=
  .next (thumbCompare (subFlags (s.low rd) (imm.setWidth 32) true) s)

/-- ADD of an 8-bit immediate, format T3 (R339). -/
def execTAddImm8 (rd : LowReg) (imm : BitVec 8) (s : State) : Result :=
  .next (thumbArith rd (addFlags (s.low rd) (imm.setWidth 32) false) s)

/-- SUB of an 8-bit immediate, format T3 (R340). -/
def execTSubImm8 (rd : LowReg) (imm : BitVec 8) (s : State) : Result :=
  .next (thumbArith rd (subFlags (s.low rd) (imm.setWidth 32) true) s)

/-- AND, format T4 (R345). -/
def execTAnd (rs rd : LowReg) (s : State) : Result := .next (thumbLogical rd (s.low rd &&& s.low rs) s)

/-- EOR, format T4 (R346). -/
def execTEor (rs rd : LowReg) (s : State) : Result := .next (thumbLogical rd (s.low rd ^^^ s.low rs) s)

/-- LSL by a register, format T4 (R347). -/
def execTLslReg (rs rd : LowReg) (s : State) : Result :=
  .next (thumbShift rd (shiftReg .lsl (s.low rd) (shiftByte (s.low rs)) s.cpsr.c) s)

/-- LSR by a register, format T4 (R348). -/
def execTLsrReg (rs rd : LowReg) (s : State) : Result :=
  .next (thumbShift rd (shiftReg .lsr (s.low rd) (shiftByte (s.low rs)) s.cpsr.c) s)

/-- ASR by a register, format T4 (R349). -/
def execTAsrReg (rs rd : LowReg) (s : State) : Result :=
  .next (thumbShift rd (shiftReg .asr (s.low rd) (shiftByte (s.low rs)) s.cpsr.c) s)

/-- ADC, format T4 (R350). -/
def execTAdc (rs rd : LowReg) (s : State) : Result :=
  .next (thumbArith rd (addFlags (s.low rd) (s.low rs) s.cpsr.c) s)

/-- SBC, format T4 (R351). -/
def execTSbc (rs rd : LowReg) (s : State) : Result :=
  .next (thumbArith rd (subFlags (s.low rd) (s.low rs) s.cpsr.c) s)

/-- ROR by a register, format T4 (R352). -/
def execTRorReg (rs rd : LowReg) (s : State) : Result :=
  .next (thumbShift rd (shiftReg .ror (s.low rd) (shiftByte (s.low rs)) s.cpsr.c) s)

/-- TST, format T4 (R353). -/
def execTTst (rs rd : LowReg) (s : State) : Result := .next (s.withCpsr (s.cpsr.setNZ (s.low rd &&& s.low rs)))

/-- NEG, format T4 (R354). -/
def execTNeg (rs rd : LowReg) (s : State) : Result := .next (thumbArith rd (subFlags 0#32 (s.low rs) true) s)

/-- CMP, format T4 (R355). -/
def execTCmp (rs rd : LowReg) (s : State) : Result := .next (thumbCompare (subFlags (s.low rd) (s.low rs) true) s)

/-- CMN, format T4 (R356). -/
def execTCmn (rs rd : LowReg) (s : State) : Result := .next (thumbCompare (addFlags (s.low rd) (s.low rs) false) s)

/-- ORR, format T4 (R357). -/
def execTOrr (rs rd : LowReg) (s : State) : Result := .next (thumbLogical rd (s.low rd ||| s.low rs) s)

/-- MUL, format T4: C is cleared (R358). -/
def execTMul (rs rd : LowReg) (s : State) : Result := .next (thumbShift rd (s.low rd * s.low rs, false) s)

/-- BIC, format T4 (R359). -/
def execTBic (rs rd : LowReg) (s : State) : Result := .next (thumbLogical rd (s.low rd &&& ~~~s.low rs) s)

/-- MVN, format T4 (R360). -/
def execTMvn (rs rd : LowReg) (s : State) : Result := .next (thumbLogical rd (~~~s.low rs) s)

/-- ADD of high registers, format T5 (R361). -/
def execTAddHi (h1 h2 : Bool) (rs rd : LowReg) (s : State) : Result :=
  .next (s.setReg (highReg h1 rd) (s.reg (highReg h1 rd) + s.reg (highReg h2 rs)))

/-- CMP of high registers, format T5 (R362). -/
def execTCmpHi (h1 h2 : Bool) (rs rd : LowReg) (s : State) : Result :=
  .next (thumbCompare (subFlags (s.reg (highReg h1 rd)) (s.reg (highReg h2 rs)) true) s)

/-- MOV of high registers, format T5 (R363). -/
def execTMovHi (h1 h2 : Bool) (rs rd : LowReg) (s : State) : Result :=
  .next (s.setReg (highReg h1 rd) (s.reg (highReg h2 rs)))

/-- BX, format T5 (R364). -/
def execTBx (_ignH h2 : Bool) (rs : LowReg) (_ign : BitVec 3) (s : State) : Result :=
  .next (branchExchange (s.reg (highReg h2 rs)) s)

/-- ADD of an offset to the PC, format T12 (R365). -/
def execTAddPc (rd : LowReg) (off : BitVec 8) (s : State) : Result := .next (s.setLow rd (pcBase s + times4 off))

/-- ADD of an offset to the SP, format T12 (R366). -/
def execTAddSp (rd : LowReg) (off : BitVec 8) (s : State) : Result := .next (s.setLow rd (s.reg sp + times4 off))

/-- ADD to the SP, format T13 (R367). -/
def execTSpPlus (off : BitVec 7) (s : State) : Result := .next (s.setReg sp (s.reg sp + times4 off))

/-- ADD of a negative offset to the SP, format T13 (R368). -/
def execTSpMinus (off : BitVec 7) (s : State) : Result := .next (s.setReg sp (s.reg sp - times4 off))

end Sys2Proof.Machine
end

