-- ==== Sys2Proof/Machine/ThumbBranch.lean ====
section
/-! DEFINITION. THUMB branches, the software interrupt, and the encodings that report Undefined
(spec/47_thumb_branch.md R440 to R448). -/

namespace Sys2Proof.Machine

/-- The conditional branch, over its condition code (R440). -/
def thumbBranchIf (c : CondCode) (off : BitVec 8) (s : State) : State :=
  if condPass c s.cpsr then s.branch (s.r15 + branchOffset8 off) else s

/-- A THUMB halfword that reports Undefined: the report carries its 16 bits in the low half (R462). -/
def undefinedThumb (kind : UndefKind) (h : Half) (s : State) : Result :=
  .next (reportUndefined kind (h.setWidth 32) s)

/-- BEQ, format T16: condition code 0 (R440). -/
def execTBeq (off : BitVec 8) (s : State) : Result := .next (thumbBranchIf 0#4 off s)

/-- BNE, format T16: condition code 1 (R440). -/
def execTBne (off : BitVec 8) (s : State) : Result := .next (thumbBranchIf 1#4 off s)

/-- BCS, format T16: condition code 2 (R440). -/
def execTBcs (off : BitVec 8) (s : State) : Result := .next (thumbBranchIf 2#4 off s)

/-- BCC, format T16: condition code 3 (R440). -/
def execTBcc (off : BitVec 8) (s : State) : Result := .next (thumbBranchIf 3#4 off s)

/-- BMI, format T16: condition code 4 (R440). -/
def execTBmi (off : BitVec 8) (s : State) : Result := .next (thumbBranchIf 4#4 off s)

/-- BPL, format T16: condition code 5 (R440). -/
def execTBpl (off : BitVec 8) (s : State) : Result := .next (thumbBranchIf 5#4 off s)

/-- BVS, format T16: condition code 6 (R440). -/
def execTBvs (off : BitVec 8) (s : State) : Result := .next (thumbBranchIf 6#4 off s)

/-- BVC, format T16: condition code 7 (R440). -/
def execTBvc (off : BitVec 8) (s : State) : Result := .next (thumbBranchIf 7#4 off s)

/-- BHI, format T16: condition code 8 (R440). -/
def execTBhi (off : BitVec 8) (s : State) : Result := .next (thumbBranchIf 8#4 off s)

/-- BLS, format T16: condition code 9 (R440). -/
def execTBls (off : BitVec 8) (s : State) : Result := .next (thumbBranchIf 9#4 off s)

/-- BGE, format T16: condition code 10 (R440). -/
def execTBge (off : BitVec 8) (s : State) : Result := .next (thumbBranchIf 10#4 off s)

/-- BLT, format T16: condition code 11 (R440). -/
def execTBlt (off : BitVec 8) (s : State) : Result := .next (thumbBranchIf 11#4 off s)

/-- BGT, format T16: condition code 12 (R440). -/
def execTBgt (off : BitVec 8) (s : State) : Result := .next (thumbBranchIf 12#4 off s)

/-- BLE, format T16: condition code 13 (R440). -/
def execTBle (off : BitVec 8) (s : State) : Result := .next (thumbBranchIf 13#4 off s)

/-- Condition code 14 of format T16 (R441). -/
def execTUndCond14 (w : BitVec 16) (s : State) : Result := undefinedThumb .trap w s

/-- SWI, format T17: the 8-bit value is zero-extended (R442). -/
def execTSwi (comment : BitVec 8) (s : State) : Result := softwareInterrupt (comment.setWidth 24) s

/-- B, format T18 (R443). -/
def execTB (off : BitVec 11) (s : State) : Result := .next (s.branch (s.r15 + branchOffset11 off))

/-- BL, first half, format T19 (R446). -/
def execTBlHigh (off : BitVec 11) (s : State) : Result := .next (s.setReg lr (s.r15 + longOffsetHigh off))

/-- BL, second half, format T19: the old r14 is read before r14 takes `(A + 2) OR 1` (R447). -/
def execTBlLow (off : BitVec 11) (s : State) : Result :=
  .next ((s.setReg lr ((s.instrAddr + 2#32) ||| 1#32)).branch (s.reg lr + longOffsetLow off))

/-- The unallocated halfwords 10110001xxxxxxxx (R448). -/
def execTUndB1 (w : BitVec 16) (s : State) : Result := undefinedThumb .decode w s

/-- The unallocated halfwords 1011001xxxxxxxxx (R448). -/
def execTUndB2 (w : BitVec 16) (s : State) : Result := undefinedThumb .decode w s

/-- The unallocated halfwords 1011011xxxxxxxxx (R448). -/
def execTUndB6 (w : BitVec 16) (s : State) : Result := undefinedThumb .decode w s

/-- The unallocated halfwords 101110xxxxxxxxxx (R448). -/
def execTUndB8 (w : BitVec 16) (s : State) : Result := undefinedThumb .decode w s

/-- The unallocated halfwords 1011111xxxxxxxxx (R448). -/
def execTUndBe (w : BitVec 16) (s : State) : Result := undefinedThumb .decode w s

/-- The unallocated halfwords 11101xxxxxxxxxxx (R448). -/
def execTUndE8 (w : BitVec 16) (s : State) : Result := undefinedThumb .decode w s

end Sys2Proof.Machine
end

