-- ==== Sys2Proof/Machine/ThumbLoadStore.lean ====
section
/-! DEFINITION. THUMB loads, stores, push, pop and multiple transfer (spec/46_thumb_load_store.md R390 to R413). -/

namespace Sys2Proof.Machine

/-! ### The shared transfers: one register, no write-back -/

/-- A THUMB load into one of r0 to r7. -/
def thumbLoad (k : LoadKind) (rd : LowReg) (a : Word) (s : State) : Result :=
  whenAdmitted s a k.width (.next ((s.load k a).setLow rd (loadValue s.mem k a)))

/-- A THUMB store of one of r0 to r7. -/
def thumbStore (n : Width) (rd : LowReg) (a : Word) (s : State) : Result :=
  whenAdmitted s a n (.next (s.store a n (s.low rd)))

/-- The registers PUSH transfers: the list, then the link register (R410). -/
def pushRegs (r : Bool) (list : BitVec 8) : List Reg := lowRegsOf list ++ (if r then [lr] else [])

/-- The number of words POP transfers (R411). -/
def popCount (r : Bool) (list : BitVec 8) : Nat := (lowRegsOf list).length + r.toNat

/-! ### The meanings -/

/-- LDR, PC-relative, format T6 (R390). -/
def execTLdrPc (rd : LowReg) (off : BitVec 8) (s : State) : Result := thumbLoad .word rd (pcBase s + times4 off) s

/-- STR, register offset, format T7 (R391). -/
def execTStrReg (ro rb rd : LowReg) (s : State) : Result := thumbStore .word rd (s.low rb + s.low ro) s

/-- STRB, register offset, format T7 (R392). -/
def execTStrbReg (ro rb rd : LowReg) (s : State) : Result := thumbStore .byte rd (s.low rb + s.low ro) s

/-- LDR, register offset, format T7 (R393). -/
def execTLdrReg (ro rb rd : LowReg) (s : State) : Result := thumbLoad .word rd (s.low rb + s.low ro) s

/-- LDRB, register offset, format T7 (R394). -/
def execTLdrbReg (ro rb rd : LowReg) (s : State) : Result := thumbLoad .byte rd (s.low rb + s.low ro) s

/-- STRH, register offset, format T8 (R395). -/
def execTStrhReg (ro rb rd : LowReg) (s : State) : Result := thumbStore .half rd (s.low rb + s.low ro) s

/-- LDSB, register offset, format T8 (R396). -/
def execTLdsbReg (ro rb rd : LowReg) (s : State) : Result := thumbLoad .signedByte rd (s.low rb + s.low ro) s

/-- LDRH, register offset, format T8 (R397). -/
def execTLdrhReg (ro rb rd : LowReg) (s : State) : Result := thumbLoad .half rd (s.low rb + s.low ro) s

/-- LDSH, register offset, format T8 (R398). -/
def execTLdshReg (ro rb rd : LowReg) (s : State) : Result := thumbLoad .signedHalf rd (s.low rb + s.low ro) s

/-- STR, immediate offset, format T9 (R399). -/
def execTStrImm (off : BitVec 5) (rb rd : LowReg) (s : State) : Result :=
  thumbStore .word rd (s.low rb + times4 off) s

/-- LDR, immediate offset, format T9 (R400). -/
def execTLdrImm (off : BitVec 5) (rb rd : LowReg) (s : State) : Result := thumbLoad .word rd (s.low rb + times4 off) s

/-- STRB, immediate offset, format T9 (R401). -/
def execTStrbImm (off : BitVec 5) (rb rd : LowReg) (s : State) : Result :=
  thumbStore .byte rd (s.low rb + off.setWidth 32) s

/-- LDRB, immediate offset, format T9 (R402). -/
def execTLdrbImm (off : BitVec 5) (rb rd : LowReg) (s : State) : Result :=
  thumbLoad .byte rd (s.low rb + off.setWidth 32) s

/-- STRH, immediate offset, format T10 (R403). -/
def execTStrhImm (off : BitVec 5) (rb rd : LowReg) (s : State) : Result :=
  thumbStore .half rd (s.low rb + times2 off) s

/-- LDRH, immediate offset, format T10 (R404). -/
def execTLdrhImm (off : BitVec 5) (rb rd : LowReg) (s : State) : Result :=
  thumbLoad .half rd (s.low rb + times2 off) s

/-- STR, SP-relative, format T11 (R405). -/
def execTStrSp (rd : LowReg) (off : BitVec 8) (s : State) : Result := thumbStore .word rd (s.reg sp + times4 off) s

/-- LDR, SP-relative, format T11 (R406). -/
def execTLdrSp (rd : LowReg) (off : BitVec 8) (s : State) : Result := thumbLoad .word rd (s.reg sp + times4 off) s

/-- PUSH, format T14: the registers are stored, then r13 is written (R410). -/
def execTPush (r : Bool) (list : BitVec 8) (s : State) : Result :=
  let start := s.reg sp - wordsSize (pushRegs r list).length
  whenAdmitted s start .word (.next ((storeRegs false s.r15 (pushRegs r list) start s).setReg sp start))

/-- POP, format T14: the registers are loaded, then r13 is written, then the PC is loaded (R411). -/
def execTPop (r : Bool) (list : BitVec 8) (s : State) : Result :=
  let base := s.reg sp
  let loaded := (loadRegs false (lowRegsOf list) base s).setReg sp (base + wordsSize (popCount r list))
  whenAdmitted s base .word
    (.next (if r then loadPc false (base + wordsSize (lowRegsOf list).length) loaded else loaded))

/-- STMIA, format T15 (R412). -/
def execTStmia (rb : LowReg) (list : BitVec 8) (s : State) : Result :=
  let base := s.low rb
  let rs := lowRegsOf list
  whenAdmitted s base .word
    (.next (storeMultiple false true (lowReg rb) base (base + wordsSize rs.length) rs s))

/-- LDMIA, format T15 (R413). -/
def execTLdmia (rb : LowReg) (list : BitVec 8) (s : State) : Result :=
  let base := s.low rb
  let rs := lowRegsOf list
  whenAdmitted s base .word (.next (loadRegs false rs base (s.setLow rb (base + wordsSize rs.length))))

end Sys2Proof.Machine
end

