-- ==== Sys2Proof/Machine/Dispatch.lean ====
section
/-! DEFINITION. The one match from an instruction to its meaning, one arm per row of spec/opcode_table.json. -/

namespace Sys2Proof.Machine

/-- The execution of an instruction that has been fetched: the program counter of `s` has already advanced past it
(spec/10_state.md R40). -/
def exec (i : Instr) (s : State) : Host.Outcome State Fault Refusal :=
  match i with
  | .andImm c sf rn rd rot imm => Sys2Proof.Machine.execAndImm c sf rn rd rot imm s
  | .andReg c sf rn rd amt ty rm => Sys2Proof.Machine.execAndReg c sf rn rd amt ty rm s
  | .andRsr c sf rn rd rs ty rm => Sys2Proof.Machine.execAndRsr c sf rn rd rs ty rm s
  | .eorImm c sf rn rd rot imm => Sys2Proof.Machine.execEorImm c sf rn rd rot imm s
  | .eorReg c sf rn rd amt ty rm => Sys2Proof.Machine.execEorReg c sf rn rd amt ty rm s
  | .eorRsr c sf rn rd rs ty rm => Sys2Proof.Machine.execEorRsr c sf rn rd rs ty rm s
  | .subImm c sf rn rd rot imm => Sys2Proof.Machine.execSubImm c sf rn rd rot imm s
  | .subReg c sf rn rd amt ty rm => Sys2Proof.Machine.execSubReg c sf rn rd amt ty rm s
  | .subRsr c sf rn rd rs ty rm => Sys2Proof.Machine.execSubRsr c sf rn rd rs ty rm s
  | .rsbImm c sf rn rd rot imm => Sys2Proof.Machine.execRsbImm c sf rn rd rot imm s
  | .rsbReg c sf rn rd amt ty rm => Sys2Proof.Machine.execRsbReg c sf rn rd amt ty rm s
  | .rsbRsr c sf rn rd rs ty rm => Sys2Proof.Machine.execRsbRsr c sf rn rd rs ty rm s
  | .addImm c sf rn rd rot imm => Sys2Proof.Machine.execAddImm c sf rn rd rot imm s
  | .addReg c sf rn rd amt ty rm => Sys2Proof.Machine.execAddReg c sf rn rd amt ty rm s
  | .addRsr c sf rn rd rs ty rm => Sys2Proof.Machine.execAddRsr c sf rn rd rs ty rm s
  | .adcImm c sf rn rd rot imm => Sys2Proof.Machine.execAdcImm c sf rn rd rot imm s
  | .adcReg c sf rn rd amt ty rm => Sys2Proof.Machine.execAdcReg c sf rn rd amt ty rm s
  | .adcRsr c sf rn rd rs ty rm => Sys2Proof.Machine.execAdcRsr c sf rn rd rs ty rm s
  | .sbcImm c sf rn rd rot imm => Sys2Proof.Machine.execSbcImm c sf rn rd rot imm s
  | .sbcReg c sf rn rd amt ty rm => Sys2Proof.Machine.execSbcReg c sf rn rd amt ty rm s
  | .sbcRsr c sf rn rd rs ty rm => Sys2Proof.Machine.execSbcRsr c sf rn rd rs ty rm s
  | .rscImm c sf rn rd rot imm => Sys2Proof.Machine.execRscImm c sf rn rd rot imm s
  | .rscReg c sf rn rd amt ty rm => Sys2Proof.Machine.execRscReg c sf rn rd amt ty rm s
  | .rscRsr c sf rn rd rs ty rm => Sys2Proof.Machine.execRscRsr c sf rn rd rs ty rm s
  | .tstImm c rn ign rot imm => Sys2Proof.Machine.execTstImm c rn ign rot imm s
  | .tstReg c rn ign amt ty rm => Sys2Proof.Machine.execTstReg c rn ign amt ty rm s
  | .tstRsr c rn ign rs ty rm => Sys2Proof.Machine.execTstRsr c rn ign rs ty rm s
  | .teqImm c rn ign rot imm => Sys2Proof.Machine.execTeqImm c rn ign rot imm s
  | .teqReg c rn ign amt ty rm => Sys2Proof.Machine.execTeqReg c rn ign amt ty rm s
  | .teqRsr c rn ign rs ty rm => Sys2Proof.Machine.execTeqRsr c rn ign rs ty rm s
  | .cmpImm c rn ign rot imm => Sys2Proof.Machine.execCmpImm c rn ign rot imm s
  | .cmpReg c rn ign amt ty rm => Sys2Proof.Machine.execCmpReg c rn ign amt ty rm s
  | .cmpRsr c rn ign rs ty rm => Sys2Proof.Machine.execCmpRsr c rn ign rs ty rm s
  | .cmnImm c rn ign rot imm => Sys2Proof.Machine.execCmnImm c rn ign rot imm s
  | .cmnReg c rn ign amt ty rm => Sys2Proof.Machine.execCmnReg c rn ign amt ty rm s
  | .cmnRsr c rn ign rs ty rm => Sys2Proof.Machine.execCmnRsr c rn ign rs ty rm s
  | .orrImm c sf rn rd rot imm => Sys2Proof.Machine.execOrrImm c sf rn rd rot imm s
  | .orrReg c sf rn rd amt ty rm => Sys2Proof.Machine.execOrrReg c sf rn rd amt ty rm s
  | .orrRsr c sf rn rd rs ty rm => Sys2Proof.Machine.execOrrRsr c sf rn rd rs ty rm s
  | .movImm c sf ign rd rot imm => Sys2Proof.Machine.execMovImm c sf ign rd rot imm s
  | .movReg c sf ign rd amt ty rm => Sys2Proof.Machine.execMovReg c sf ign rd amt ty rm s
  | .movRsr c sf ign rd rs ty rm => Sys2Proof.Machine.execMovRsr c sf ign rd rs ty rm s
  | .bicImm c sf rn rd rot imm => Sys2Proof.Machine.execBicImm c sf rn rd rot imm s
  | .bicReg c sf rn rd amt ty rm => Sys2Proof.Machine.execBicReg c sf rn rd amt ty rm s
  | .bicRsr c sf rn rd rs ty rm => Sys2Proof.Machine.execBicRsr c sf rn rd rs ty rm s
  | .mvnImm c sf ign rd rot imm => Sys2Proof.Machine.execMvnImm c sf ign rd rot imm s
  | .mvnReg c sf ign rd amt ty rm => Sys2Proof.Machine.execMvnReg c sf ign rd amt ty rm s
  | .mvnRsr c sf ign rd rs ty rm => Sys2Proof.Machine.execMvnRsr c sf ign rd rs ty rm s
  | .mrs c p rd => Sys2Proof.Machine.execMrs c p rd s
  | .msrReg c p ff ign fc rm => Sys2Proof.Machine.execMsrReg c p ff ign fc rm s
  | .msrImm c p ff ign fc rot imm => Sys2Proof.Machine.execMsrImm c p ff ign fc rot imm s
  | .bx c rm => Sys2Proof.Machine.execBx c rm s
  | .mul c sf rd ign rs rm => Sys2Proof.Machine.execMul c sf rd ign rs rm s
  | .mla c sf rd rn rs rm => Sys2Proof.Machine.execMla c sf rd rn rs rm s
  | .umull c sf rdHi rdLo rs rm => Sys2Proof.Machine.execUmull c sf rdHi rdLo rs rm s
  | .umlal c sf rdHi rdLo rs rm => Sys2Proof.Machine.execUmlal c sf rdHi rdLo rs rm s
  | .smull c sf rdHi rdLo rs rm => Sys2Proof.Machine.execSmull c sf rdHi rdLo rs rm s
  | .smlal c sf rdHi rdLo rs rm => Sys2Proof.Machine.execSmlal c sf rdHi rdLo rs rm s
  | .swp c rn rd ign rm => Sys2Proof.Machine.execSwp c rn rd ign rm s
  | .swpb c rn rd ign rm => Sys2Proof.Machine.execSwpb c rn rd ign rm s
  | .strhRegPre c u w rn rd ign rm => Sys2Proof.Machine.execStrhRegPre c u w rn rd ign rm s
  | .strhRegPost c u rn rd ign rm => Sys2Proof.Machine.execStrhRegPost c u rn rd ign rm s
  | .strhImmPre c u w rn rd hi lo => Sys2Proof.Machine.execStrhImmPre c u w rn rd hi lo s
  | .strhImmPost c u rn rd hi lo => Sys2Proof.Machine.execStrhImmPost c u rn rd hi lo s
  | .ldrhRegPre c u w rn rd ign rm => Sys2Proof.Machine.execLdrhRegPre c u w rn rd ign rm s
  | .ldrhRegPost c u rn rd ign rm => Sys2Proof.Machine.execLdrhRegPost c u rn rd ign rm s
  | .ldrhImmPre c u w rn rd hi lo => Sys2Proof.Machine.execLdrhImmPre c u w rn rd hi lo s
  | .ldrhImmPost c u rn rd hi lo => Sys2Proof.Machine.execLdrhImmPost c u rn rd hi lo s
  | .ldrsbRegPre c u w rn rd ign rm => Sys2Proof.Machine.execLdrsbRegPre c u w rn rd ign rm s
  | .ldrsbRegPost c u rn rd ign rm => Sys2Proof.Machine.execLdrsbRegPost c u rn rd ign rm s
  | .ldrsbImmPre c u w rn rd hi lo => Sys2Proof.Machine.execLdrsbImmPre c u w rn rd hi lo s
  | .ldrsbImmPost c u rn rd hi lo => Sys2Proof.Machine.execLdrsbImmPost c u rn rd hi lo s
  | .ldrshRegPre c u w rn rd ign rm => Sys2Proof.Machine.execLdrshRegPre c u w rn rd ign rm s
  | .ldrshRegPost c u rn rd ign rm => Sys2Proof.Machine.execLdrshRegPost c u rn rd ign rm s
  | .ldrshImmPre c u w rn rd hi lo => Sys2Proof.Machine.execLdrshImmPre c u w rn rd hi lo s
  | .ldrshImmPost c u rn rd hi lo => Sys2Proof.Machine.execLdrshImmPost c u rn rd hi lo s
  | .ldrImmPre c u w rn rd off => Sys2Proof.Machine.execLdrImmPre c u w rn rd off s
  | .ldrImmPost c u rn rd off => Sys2Proof.Machine.execLdrImmPost c u rn rd off s
  | .ldrtImm c u rn rd off => Sys2Proof.Machine.execLdrtImm c u rn rd off s
  | .ldrRegPre c u w rn rd amt ty rm => Sys2Proof.Machine.execLdrRegPre c u w rn rd amt ty rm s
  | .ldrRegPost c u rn rd amt ty rm => Sys2Proof.Machine.execLdrRegPost c u rn rd amt ty rm s
  | .ldrtReg c u rn rd amt ty rm => Sys2Proof.Machine.execLdrtReg c u rn rd amt ty rm s
  | .ldrbImmPre c u w rn rd off => Sys2Proof.Machine.execLdrbImmPre c u w rn rd off s
  | .ldrbImmPost c u rn rd off => Sys2Proof.Machine.execLdrbImmPost c u rn rd off s
  | .ldrbtImm c u rn rd off => Sys2Proof.Machine.execLdrbtImm c u rn rd off s
  | .ldrbRegPre c u w rn rd amt ty rm => Sys2Proof.Machine.execLdrbRegPre c u w rn rd amt ty rm s
  | .ldrbRegPost c u rn rd amt ty rm => Sys2Proof.Machine.execLdrbRegPost c u rn rd amt ty rm s
  | .ldrbtReg c u rn rd amt ty rm => Sys2Proof.Machine.execLdrbtReg c u rn rd amt ty rm s
  | .strImmPre c u w rn rd off => Sys2Proof.Machine.execStrImmPre c u w rn rd off s
  | .strImmPost c u rn rd off => Sys2Proof.Machine.execStrImmPost c u rn rd off s
  | .strtImm c u rn rd off => Sys2Proof.Machine.execStrtImm c u rn rd off s
  | .strRegPre c u w rn rd amt ty rm => Sys2Proof.Machine.execStrRegPre c u w rn rd amt ty rm s
  | .strRegPost c u rn rd amt ty rm => Sys2Proof.Machine.execStrRegPost c u rn rd amt ty rm s
  | .strtReg c u rn rd amt ty rm => Sys2Proof.Machine.execStrtReg c u rn rd amt ty rm s
  | .strbImmPre c u w rn rd off => Sys2Proof.Machine.execStrbImmPre c u w rn rd off s
  | .strbImmPost c u rn rd off => Sys2Proof.Machine.execStrbImmPost c u rn rd off s
  | .strbtImm c u rn rd off => Sys2Proof.Machine.execStrbtImm c u rn rd off s
  | .strbRegPre c u w rn rd amt ty rm => Sys2Proof.Machine.execStrbRegPre c u w rn rd amt ty rm s
  | .strbRegPost c u rn rd amt ty rm => Sys2Proof.Machine.execStrbRegPost c u rn rd amt ty rm s
  | .strbtReg c u rn rd amt ty rm => Sys2Proof.Machine.execStrbtReg c u rn rd amt ty rm s
  | .ldm c p u ub w rn list => Sys2Proof.Machine.execLdm c p u ub w rn list s
  | .stm c p u ub w rn list => Sys2Proof.Machine.execStm c p u ub w rn list s
  | .b c off => Sys2Proof.Machine.execB c off s
  | .bl c off => Sys2Proof.Machine.execBl c off s
  | .swi c comment => Sys2Proof.Machine.execSwi c comment s
  | .undMulSpace w => Sys2Proof.Machine.execUndMulSpace w s
  | .undTestReg w => Sys2Proof.Machine.execUndTestReg w s
  | .undTestRsr w => Sys2Proof.Machine.execUndTestRsr w s
  | .undTestImm w => Sys2Proof.Machine.execUndTestImm w s
  | .undClass011 w => Sys2Proof.Machine.execUndClass011 w s
  | .undCopTransfer w => Sys2Proof.Machine.execUndCopTransfer w s
  | .undCopOp w => Sys2Proof.Machine.execUndCopOp w s
  | .tLslImm amt rs rd => Sys2Proof.Machine.execTLslImm amt rs rd s
  | .tLsrImm amt rs rd => Sys2Proof.Machine.execTLsrImm amt rs rd s
  | .tAsrImm amt rs rd => Sys2Proof.Machine.execTAsrImm amt rs rd s
  | .tAddReg rn rs rd => Sys2Proof.Machine.execTAddReg rn rs rd s
  | .tSubReg rn rs rd => Sys2Proof.Machine.execTSubReg rn rs rd s
  | .tAddImm3 imm rs rd => Sys2Proof.Machine.execTAddImm3 imm rs rd s
  | .tSubImm3 imm rs rd => Sys2Proof.Machine.execTSubImm3 imm rs rd s
  | .tMovImm8 rd imm => Sys2Proof.Machine.execTMovImm8 rd imm s
  | .tCmpImm8 rd imm => Sys2Proof.Machine.execTCmpImm8 rd imm s
  | .tAddImm8 rd imm => Sys2Proof.Machine.execTAddImm8 rd imm s
  | .tSubImm8 rd imm => Sys2Proof.Machine.execTSubImm8 rd imm s
  | .tAnd rs rd => Sys2Proof.Machine.execTAnd rs rd s
  | .tEor rs rd => Sys2Proof.Machine.execTEor rs rd s
  | .tLslReg rs rd => Sys2Proof.Machine.execTLslReg rs rd s
  | .tLsrReg rs rd => Sys2Proof.Machine.execTLsrReg rs rd s
  | .tAsrReg rs rd => Sys2Proof.Machine.execTAsrReg rs rd s
  | .tAdc rs rd => Sys2Proof.Machine.execTAdc rs rd s
  | .tSbc rs rd => Sys2Proof.Machine.execTSbc rs rd s
  | .tRorReg rs rd => Sys2Proof.Machine.execTRorReg rs rd s
  | .tTst rs rd => Sys2Proof.Machine.execTTst rs rd s
  | .tNeg rs rd => Sys2Proof.Machine.execTNeg rs rd s
  | .tCmp rs rd => Sys2Proof.Machine.execTCmp rs rd s
  | .tCmn rs rd => Sys2Proof.Machine.execTCmn rs rd s
  | .tOrr rs rd => Sys2Proof.Machine.execTOrr rs rd s
  | .tMul rs rd => Sys2Proof.Machine.execTMul rs rd s
  | .tBic rs rd => Sys2Proof.Machine.execTBic rs rd s
  | .tMvn rs rd => Sys2Proof.Machine.execTMvn rs rd s
  | .tAddHi h1 h2 rs rd => Sys2Proof.Machine.execTAddHi h1 h2 rs rd s
  | .tCmpHi h1 h2 rs rd => Sys2Proof.Machine.execTCmpHi h1 h2 rs rd s
  | .tMovHi h1 h2 rs rd => Sys2Proof.Machine.execTMovHi h1 h2 rs rd s
  | .tBx ignH h2 rs ign => Sys2Proof.Machine.execTBx ignH h2 rs ign s
  | .tLdrPc rd off => Sys2Proof.Machine.execTLdrPc rd off s
  | .tStrReg ro rb rd => Sys2Proof.Machine.execTStrReg ro rb rd s
  | .tStrhReg ro rb rd => Sys2Proof.Machine.execTStrhReg ro rb rd s
  | .tStrbReg ro rb rd => Sys2Proof.Machine.execTStrbReg ro rb rd s
  | .tLdsbReg ro rb rd => Sys2Proof.Machine.execTLdsbReg ro rb rd s
  | .tLdrReg ro rb rd => Sys2Proof.Machine.execTLdrReg ro rb rd s
  | .tLdrhReg ro rb rd => Sys2Proof.Machine.execTLdrhReg ro rb rd s
  | .tLdrbReg ro rb rd => Sys2Proof.Machine.execTLdrbReg ro rb rd s
  | .tLdshReg ro rb rd => Sys2Proof.Machine.execTLdshReg ro rb rd s
  | .tStrImm off rb rd => Sys2Proof.Machine.execTStrImm off rb rd s
  | .tLdrImm off rb rd => Sys2Proof.Machine.execTLdrImm off rb rd s
  | .tStrbImm off rb rd => Sys2Proof.Machine.execTStrbImm off rb rd s
  | .tLdrbImm off rb rd => Sys2Proof.Machine.execTLdrbImm off rb rd s
  | .tStrhImm off rb rd => Sys2Proof.Machine.execTStrhImm off rb rd s
  | .tLdrhImm off rb rd => Sys2Proof.Machine.execTLdrhImm off rb rd s
  | .tStrSp rd off => Sys2Proof.Machine.execTStrSp rd off s
  | .tLdrSp rd off => Sys2Proof.Machine.execTLdrSp rd off s
  | .tAddPc rd off => Sys2Proof.Machine.execTAddPc rd off s
  | .tAddSp rd off => Sys2Proof.Machine.execTAddSp rd off s
  | .tSpPlus off => Sys2Proof.Machine.execTSpPlus off s
  | .tSpMinus off => Sys2Proof.Machine.execTSpMinus off s
  | .tPush r list => Sys2Proof.Machine.execTPush r list s
  | .tPop r list => Sys2Proof.Machine.execTPop r list s
  | .tStmia rb list => Sys2Proof.Machine.execTStmia rb list s
  | .tLdmia rb list => Sys2Proof.Machine.execTLdmia rb list s
  | .tBeq off => Sys2Proof.Machine.execTBeq off s
  | .tBne off => Sys2Proof.Machine.execTBne off s
  | .tBcs off => Sys2Proof.Machine.execTBcs off s
  | .tBcc off => Sys2Proof.Machine.execTBcc off s
  | .tBmi off => Sys2Proof.Machine.execTBmi off s
  | .tBpl off => Sys2Proof.Machine.execTBpl off s
  | .tBvs off => Sys2Proof.Machine.execTBvs off s
  | .tBvc off => Sys2Proof.Machine.execTBvc off s
  | .tBhi off => Sys2Proof.Machine.execTBhi off s
  | .tBls off => Sys2Proof.Machine.execTBls off s
  | .tBge off => Sys2Proof.Machine.execTBge off s
  | .tBlt off => Sys2Proof.Machine.execTBlt off s
  | .tBgt off => Sys2Proof.Machine.execTBgt off s
  | .tBle off => Sys2Proof.Machine.execTBle off s
  | .tUndCond14 w => Sys2Proof.Machine.execTUndCond14 w s
  | .tSwi comment => Sys2Proof.Machine.execTSwi comment s
  | .tB off => Sys2Proof.Machine.execTB off s
  | .tBlHigh off => Sys2Proof.Machine.execTBlHigh off s
  | .tBlLow off => Sys2Proof.Machine.execTBlLow off s
  | .tUndB1 w => Sys2Proof.Machine.execTUndB1 w s
  | .tUndB2 w => Sys2Proof.Machine.execTUndB2 w s
  | .tUndB6 w => Sys2Proof.Machine.execTUndB6 w s
  | .tUndB8 w => Sys2Proof.Machine.execTUndB8 w s
  | .tUndBe w => Sys2Proof.Machine.execTUndBe w s
  | .tUndE8 w => Sys2Proof.Machine.execTUndE8 w s

end Sys2Proof.Machine
end

