-- ==== Sys2Proof/Machine/Fetch.lean ====
section
/-! DEFINITION. Fetching an instruction, one turn of the core (spec/10_state.md R38 to R41, spec/20_memory.md R71), one
turn of the host (spec/00_scope.md R4), and how an instruction is placed where the next fetch finds it. -/

namespace Sys2Proof.Machine

/-- `Fetch(pc, size)` (R71): a word in ARM state, a halfword in THUMB state, little-endian. -/
def fetchCode (s : State) : Code := if s.cpsr.t then .thumb (s.mem.read16 s.pc) else .arm (s.mem.read32 s.pc)

/-- The width of a fetch. -/
def fetchWidth (s : State) : Width := if s.cpsr.t then .half else .word

/-- The fetch as a transaction, and the advance of the program counter past the instruction (R40, R41). -/
def advance (s : State) : State := { s with pc := s.pc + s.size, trace := .fetch s.pc (fetchWidth s) :: s.trace }

/-- One step of the core (R40). A program counter that is not a multiple of the instruction size gives the step no
meaning (R38). -/
def coreStep (s : State) : Result :=
  if s.pcAligned then exec (decode (fetchCode s)) (advance s) else .refused .misalignedPc

/-- One turn: the host's, at the boundary before a step (R4, R470), or the core's. -/
def takeTurn (turn : Turn) (s : State) : Result :=
  match turn with
  | .host a => .next (hostAct a s)
  | .core => coreStep s

/-- The turns left once the host has made those that stand before the core's next one. -/
def fromCoreTurn : List Turn → List Turn
  | .host _ :: rest => fromCoreTurn rest
  | turns => turns

/-- Place an instruction of `nbits` bits for the next fetch: its bytes at the program counter, T by its set, the
program counter a multiple of its size, and the core's turn next. -/
def placeInstr (nbits w : Nat) (s : State) : State :=
  let thumb := decide (nbits ≤ 16)
  let n : Width := if thumb then .half else .word
  { s with pc := busAddr s.pc n
           cpsr := { s.cpsr with t := thumb }
           mem := s.mem.store (busAddr s.pc n) n (BitVec.ofNat 32 w)
           schedule := fromCoreTurn s.schedule }

end Sys2Proof.Machine
end

