-- ==== Sys2Proof/Machine/Step.lean ====
section
/-! DEFINITION. The step of the machine: one turn, the one the schedule names, or else the core's. -/

namespace Sys2Proof.Machine

/-- One step. -/
def step (s : State) : Host.Outcome State Fault Refusal :=
  match s.schedule with
  | turn :: rest => takeTurn turn { s with schedule := rest }
  | [] => coreStep s

/-- A state with an instruction of the opcode table placed where `step` fetches its next instruction: the load of a
program from outside the machine (notes/assumptions/12.md). -/
def State.withFetchWord (s : State) (nbits w : Nat) : State := placeInstr nbits w s

end Sys2Proof.Machine
end

