-- ==== Sys2Proof/Safety.lean ====
section
/-! DEFINITION. The terms that claims are made in: what a sequence of register writes leaves, what a store leaves, the
forms of the instructions as the rules of spec/ name their fields, which instructions may touch which part of the
state, and the invariants. -/

namespace Sys2Proof.Machine

/-! ### Accesses -/

/-- The number of bytes of an access. -/
def Width.bytes : Width → Nat
  | .byte => 1
  | .half => 2
  | .word => 4

/-- Natural alignment (R76): the address is a multiple of the width. -/
abbrev Aligned (a : Word) (n : Width) : Prop := a.toNat % n.bytes = 0

/-- The memory `m'` is `m` with the low bytes of `v` stored at `a`, the least significant at the lowest address, and
every byte outside them unchanged (R73, R74). -/
def Stored (a : Word) (n : Width) (v : Word) (m m' : Memory) : Prop :=
  (∀ k < n.bytes, m'.byte (a + BitVec.ofNat 32 k) = byteOf v k) ∧
    ∀ x, (∀ k < n.bytes, x ≠ a + BitVec.ofNat 32 k) → m'.byte x = m.byte x

/-- The memory `m'` is `m` with each of these words stored at its address, and every byte outside them unchanged. -/
def StoredWords (ws : List (Word × Word)) (m m' : Memory) : Prop :=
  (∀ w ∈ ws, ∀ k < 4, m'.byte (w.1 + BitVec.ofNat 32 k) = byteOf w.2 k) ∧
    ∀ x, (∀ w ∈ ws, ∀ k < 4, x ≠ w.1 + BitVec.ofNat 32 k) → m'.byte x = m.byte x

/-! ### Register writes in order -/

/-- One register write: the storage it names, none for r15, and the value. -/
abbrev RegWrite := Option PReg × Word

/-- The value of a physical register after writes in order: the last write to it stays. -/
def valueAfter : List RegWrite → PReg → Word → Word
  | [], _, old => old
  | (q, v) :: ws, p, old => valueAfter ws p (if q = some p then v else old)

/-- A branch target, made aligned for the instruction set (R39). -/
def branchMask (thumb : Bool) (t : Word) : Word := if thumb then t &&& 0xFFFFFFFE#32 else t &&& 0xFFFFFFFC#32

/-- The program counter after writes in order: a write of r15 is a branch (R34). -/
def pcAfter (thumb : Bool) : List RegWrite → Word → Word
  | [], old => old
  | (q, v) :: ws, old => pcAfter thumb ws (if q = none then branchMask thumb v else old)

/-- The registers of `t` are those of `s` after these writes, r15 being masked for the instruction set `thumb`; every
other register is unchanged. -/
def RegistersAfter (ws : List RegWrite) (thumb : Bool) (s t : State) : Prop :=
  (∀ p, t.regs.get p = valueAfter ws p (s.regs.get p)) ∧ t.pc = pcAfter thumb ws s.pc

/-- The storage that a register number names in the current mode. -/
def State.phys (s : State) (i : Reg) : Option PReg := physReg s.cpsr.m i

/-! ### ARM data processing (R180) -/

/-- The sixteen operations. -/
inductive DpOp where
  | and | eor | sub | rsb | add | adc | sbc | rsc | tst | teq | cmp | cmn | orr | mov | bic | mvn
deriving DecidableEq, Repr

/-- The three forms of the second operand. -/
inductive Operand where
  | imm (rot : BitVec 4) (b : BitVec 8)
  | reg (amt : BitVec 5) (ty : ShiftType) (rm : Reg)
  | rsr (rs : Reg) (ty : ShiftType) (rm : Reg)
deriving DecidableEq, Repr

/-- `Op2` (R180): the second operand and the shifter carry. -/
def Operand.value (o : Operand) (s : State) : Word × Bool :=
  match o with
  | .imm rot b => rotatedImm rot b s.cpsr.c
  | .reg amt ty rm => shiftImm ty (s.reg rm) amt s.cpsr.c
  | .rsr rs ty rm => shiftReg ty (s.reg rm) ((s.reg rs).setWidth 8) s.cpsr.c

/-- The fields of a data-processing instruction. The field Rn of MOV and MVN and the field Rd of the tests are
ignored. -/
structure DpForm where
  c : CondCode
  op : DpOp
  sf : Bool
  rn : Reg
  rd : Reg
  operand : Operand
deriving DecidableEq, Repr

/-- The fields of the 48 data-processing instructions. -/
def dpForm : Instr → Option DpForm
  | .andImm c sf rn rd rot imm => some ⟨c, .and, sf, rn, rd, .imm rot imm⟩
  | .andReg c sf rn rd amt ty rm => some ⟨c, .and, sf, rn, rd, .reg amt ty rm⟩
  | .andRsr c sf rn rd rs ty rm => some ⟨c, .and, sf, rn, rd, .rsr rs ty rm⟩
  | .eorImm c sf rn rd rot imm => some ⟨c, .eor, sf, rn, rd, .imm rot imm⟩
  | .eorReg c sf rn rd amt ty rm => some ⟨c, .eor, sf, rn, rd, .reg amt ty rm⟩
  | .eorRsr c sf rn rd rs ty rm => some ⟨c, .eor, sf, rn, rd, .rsr rs ty rm⟩
  | .subImm c sf rn rd rot imm => some ⟨c, .sub, sf, rn, rd, .imm rot imm⟩
  | .subReg c sf rn rd amt ty rm => some ⟨c, .sub, sf, rn, rd, .reg amt ty rm⟩
  | .subRsr c sf rn rd rs ty rm => some ⟨c, .sub, sf, rn, rd, .rsr rs ty rm⟩
  | .rsbImm c sf rn rd rot imm => some ⟨c, .rsb, sf, rn, rd, .imm rot imm⟩
  | .rsbReg c sf rn rd amt ty rm => some ⟨c, .rsb, sf, rn, rd, .reg amt ty rm⟩
  | .rsbRsr c sf rn rd rs ty rm => some ⟨c, .rsb, sf, rn, rd, .rsr rs ty rm⟩
  | .addImm c sf rn rd rot imm => some ⟨c, .add, sf, rn, rd, .imm rot imm⟩
  | .addReg c sf rn rd amt ty rm => some ⟨c, .add, sf, rn, rd, .reg amt ty rm⟩
  | .addRsr c sf rn rd rs ty rm => some ⟨c, .add, sf, rn, rd, .rsr rs ty rm⟩
  | .adcImm c sf rn rd rot imm => some ⟨c, .adc, sf, rn, rd, .imm rot imm⟩
  | .adcReg c sf rn rd amt ty rm => some ⟨c, .adc, sf, rn, rd, .reg amt ty rm⟩
  | .adcRsr c sf rn rd rs ty rm => some ⟨c, .adc, sf, rn, rd, .rsr rs ty rm⟩
  | .sbcImm c sf rn rd rot imm => some ⟨c, .sbc, sf, rn, rd, .imm rot imm⟩
  | .sbcReg c sf rn rd amt ty rm => some ⟨c, .sbc, sf, rn, rd, .reg amt ty rm⟩
  | .sbcRsr c sf rn rd rs ty rm => some ⟨c, .sbc, sf, rn, rd, .rsr rs ty rm⟩
  | .rscImm c sf rn rd rot imm => some ⟨c, .rsc, sf, rn, rd, .imm rot imm⟩
  | .rscReg c sf rn rd amt ty rm => some ⟨c, .rsc, sf, rn, rd, .reg amt ty rm⟩
  | .rscRsr c sf rn rd rs ty rm => some ⟨c, .rsc, sf, rn, rd, .rsr rs ty rm⟩
  | .tstImm c rn ign rot imm => some ⟨c, .tst, true, rn, ign, .imm rot imm⟩
  | .tstReg c rn ign amt ty rm => some ⟨c, .tst, true, rn, ign, .reg amt ty rm⟩
  | .tstRsr c rn ign rs ty rm => some ⟨c, .tst, true, rn, ign, .rsr rs ty rm⟩
  | .teqImm c rn ign rot imm => some ⟨c, .teq, true, rn, ign, .imm rot imm⟩
  | .teqReg c rn ign amt ty rm => some ⟨c, .teq, true, rn, ign, .reg amt ty rm⟩
  | .teqRsr c rn ign rs ty rm => some ⟨c, .teq, true, rn, ign, .rsr rs ty rm⟩
  | .cmpImm c rn ign rot imm => some ⟨c, .cmp, true, rn, ign, .imm rot imm⟩
  | .cmpReg c rn ign amt ty rm => some ⟨c, .cmp, true, rn, ign, .reg amt ty rm⟩
  | .cmpRsr c rn ign rs ty rm => some ⟨c, .cmp, true, rn, ign, .rsr rs ty rm⟩
  | .cmnImm c rn ign rot imm => some ⟨c, .cmn, true, rn, ign, .imm rot imm⟩
  | .cmnReg c rn ign amt ty rm => some ⟨c, .cmn, true, rn, ign, .reg amt ty rm⟩
  | .cmnRsr c rn ign rs ty rm => some ⟨c, .cmn, true, rn, ign, .rsr rs ty rm⟩
  | .orrImm c sf rn rd rot imm => some ⟨c, .orr, sf, rn, rd, .imm rot imm⟩
  | .orrReg c sf rn rd amt ty rm => some ⟨c, .orr, sf, rn, rd, .reg amt ty rm⟩
  | .orrRsr c sf rn rd rs ty rm => some ⟨c, .orr, sf, rn, rd, .rsr rs ty rm⟩
  | .movImm c sf ign rd rot imm => some ⟨c, .mov, sf, ign, rd, .imm rot imm⟩
  | .movReg c sf ign rd amt ty rm => some ⟨c, .mov, sf, ign, rd, .reg amt ty rm⟩
  | .movRsr c sf ign rd rs ty rm => some ⟨c, .mov, sf, ign, rd, .rsr rs ty rm⟩
  | .bicImm c sf rn rd rot imm => some ⟨c, .bic, sf, rn, rd, .imm rot imm⟩
  | .bicReg c sf rn rd amt ty rm => some ⟨c, .bic, sf, rn, rd, .reg amt ty rm⟩
  | .bicRsr c sf rn rd rs ty rm => some ⟨c, .bic, sf, rn, rd, .rsr rs ty rm⟩
  | .mvnImm c sf ign rd rot imm => some ⟨c, .mvn, sf, ign, rd, .imm rot imm⟩
  | .mvnReg c sf ign rd amt ty rm => some ⟨c, .mvn, sf, ign, rd, .reg amt ty rm⟩
  | .mvnRsr c sf ign rd rs ty rm => some ⟨c, .mvn, sf, ign, rd, .rsr rs ty rm⟩
  | _ => none

/-- The result of a logical operation on `a`, the value of Rn, and `b`, the second operand (R184, R185, R196 to R199). -/
def logicalValue (a b : Word) : DpOp → Option Word
  | .and => some (a &&& b)
  | .eor => some (a ^^^ b)
  | .orr => some (a ||| b)
  | .mov => some b
  | .bic => some (a &&& ~~~b)
  | .mvn => some (~~~b)
  | _ => none

/-- The result and flags of an arithmetic operation (R186 to R191). -/
def arithValue (a b : Word) (cin : Bool) : DpOp → Option Flagged
  | .sub => some (subFlags a b true)
  | .rsb => some (subFlags b a true)
  | .add => some (addFlags a b false)
  | .adc => some (addFlags a b cin)
  | .sbc => some (subFlags a b cin)
  | .rsc => some (subFlags b a cin)
  | _ => none

/-- The status register that a test leaves (R192 to R195). -/
def testStatus (a b : Word) (sc : Bool) (p : Psr) : DpOp → Option Psr
  | .tst => some { p with n := (a &&& b).msb, z := decide (a &&& b = 0#32), c := sc }
  | .teq => some { p with n := (a ^^^ b).msb, z := decide (a = b), c := sc }
  | .cmp =>
    let f := subFlags a b true
    some { p with n := f.n, z := f.z, c := f.c, v := f.v }
  | .cmn =>
    let f := addFlags a b false
    some { p with n := f.n, z := f.z, c := f.c, v := f.v }
  | _ => none

/-- The status register after a data-processing instruction that leaves the flags of `flags`: reloaded from the saved
one when the S bit is set and Rd is 15 (R183, R29). -/
def statusAfter (sf : Bool) (rd : Reg) (flags : Psr) (s : State) : Psr :=
  if sf && decide (rd = 15#4) then
    match spsrBank s.cpsr.m with
    | some b => s.spsr.get b
    | none => flags
  else if sf then flags
  else s.cpsr

/-- The fields of a status register after an MSR with operand `v`, the flags field selected by `ff` and the control
field by `fc` (R201). -/
def msrFields (ff fc : Bool) (v : Word) (p : Psr) : Psr where
  n := if ff then v.getLsbD 31 else p.n
  z := if ff then v.getLsbD 30 else p.z
  c := if ff then v.getLsbD 29 else p.c
  v := if ff then v.getLsbD 28 else p.v
  i := if fc then v.getLsbD 7 else p.i
  f := if fc then v.getLsbD 6 else p.f
  t := if fc then v.getLsbD 5 else p.t
  m := if fc then v.extractLsb' 0 5 else p.m

/-! ### Single transfers (R250, R264) -/

/-- What a transfer does with memory. -/
inductive Access where
  | load (k : LoadKind)
  | store (n : Width)
deriving DecidableEq, Repr

/-- The width of an access. -/
def Access.width : Access → Width
  | .load k => k.width
  | .store n => n

/-- The forms of an offset. -/
inductive Offset where
  | imm (v : Word)
  | reg (amt : BitVec 5) (ty : ShiftType) (rm : Reg)
  | plain (rm : Reg)
deriving DecidableEq, Repr

/-- The fields of a single transfer. -/
structure TransferForm where
  c : CondCode
  access : Access
  p : Bool
  u : Bool
  w : Bool
  rn : Reg
  rd : Reg
  off : Offset
deriving DecidableEq, Repr

namespace TransferForm

/-- `offset`. -/
def offset (f : TransferForm) (s : State) : Word :=
  match f.off with
  | .imm v => v
  | .reg amt ty rm => (shiftImm ty (s.reg rm) amt s.cpsr.c).1
  | .plain rm => s.reg rm

/-- `ea`: the base plus or minus the offset. -/
def ea (f : TransferForm) (s : State) : Word :=
  if f.u then s.reg f.rn + f.offset s else s.reg f.rn - f.offset s

/-- `addr`: the address accessed. -/
def addr (f : TransferForm) (s : State) : Word := if f.p then f.ea s else s.reg f.rn

/-- `wb`: the base register is updated with `ea`. -/
def wb (f : TransferForm) : Bool := !f.p || f.w

/-- `user`: the forced-user form (R258). -/
def user (f : TransferForm) : Bool := !f.p && f.w

/-- The storage of the transferred register. -/
def rdPhys (f : TransferForm) (s : State) : Option PReg := physReg (if f.user then modeUsr else s.cpsr.m) f.rd

/-- The write-back of the base, if there is one. -/
def baseWrite (f : TransferForm) (s : State) : List RegWrite := if f.wb then [(s.phys f.rn, f.ea s)] else []

end TransferForm

/-- The fields of the 24 word and byte transfers of format A13. -/
def singleForm : Instr → Option TransferForm
  | .ldrImmPre c u w rn rd off => some ⟨c, .load .word, true, u, w, rn, rd, .imm (off.setWidth 32)⟩
  | .ldrImmPost c u rn rd off => some ⟨c, .load .word, false, u, false, rn, rd, .imm (off.setWidth 32)⟩
  | .ldrtImm c u rn rd off => some ⟨c, .load .word, false, u, true, rn, rd, .imm (off.setWidth 32)⟩
  | .ldrRegPre c u w rn rd amt ty rm => some ⟨c, .load .word, true, u, w, rn, rd, .reg amt ty rm⟩
  | .ldrRegPost c u rn rd amt ty rm => some ⟨c, .load .word, false, u, false, rn, rd, .reg amt ty rm⟩
  | .ldrtReg c u rn rd amt ty rm => some ⟨c, .load .word, false, u, true, rn, rd, .reg amt ty rm⟩
  | .ldrbImmPre c u w rn rd off => some ⟨c, .load .byte, true, u, w, rn, rd, .imm (off.setWidth 32)⟩
  | .ldrbImmPost c u rn rd off => some ⟨c, .load .byte, false, u, false, rn, rd, .imm (off.setWidth 32)⟩
  | .ldrbtImm c u rn rd off => some ⟨c, .load .byte, false, u, true, rn, rd, .imm (off.setWidth 32)⟩
  | .ldrbRegPre c u w rn rd amt ty rm => some ⟨c, .load .byte, true, u, w, rn, rd, .reg amt ty rm⟩
  | .ldrbRegPost c u rn rd amt ty rm => some ⟨c, .load .byte, false, u, false, rn, rd, .reg amt ty rm⟩
  | .ldrbtReg c u rn rd amt ty rm => some ⟨c, .load .byte, false, u, true, rn, rd, .reg amt ty rm⟩
  | .strImmPre c u w rn rd off => some ⟨c, .store .word, true, u, w, rn, rd, .imm (off.setWidth 32)⟩
  | .strImmPost c u rn rd off => some ⟨c, .store .word, false, u, false, rn, rd, .imm (off.setWidth 32)⟩
  | .strtImm c u rn rd off => some ⟨c, .store .word, false, u, true, rn, rd, .imm (off.setWidth 32)⟩
  | .strRegPre c u w rn rd amt ty rm => some ⟨c, .store .word, true, u, w, rn, rd, .reg amt ty rm⟩
  | .strRegPost c u rn rd amt ty rm => some ⟨c, .store .word, false, u, false, rn, rd, .reg amt ty rm⟩
  | .strtReg c u rn rd amt ty rm => some ⟨c, .store .word, false, u, true, rn, rd, .reg amt ty rm⟩
  | .strbImmPre c u w rn rd off => some ⟨c, .store .byte, true, u, w, rn, rd, .imm (off.setWidth 32)⟩
  | .strbImmPost c u rn rd off => some ⟨c, .store .byte, false, u, false, rn, rd, .imm (off.setWidth 32)⟩
  | .strbtImm c u rn rd off => some ⟨c, .store .byte, false, u, true, rn, rd, .imm (off.setWidth 32)⟩
  | .strbRegPre c u w rn rd amt ty rm => some ⟨c, .store .byte, true, u, w, rn, rd, .reg amt ty rm⟩
  | .strbRegPost c u rn rd amt ty rm => some ⟨c, .store .byte, false, u, false, rn, rd, .reg amt ty rm⟩
  | .strbtReg c u rn rd amt ty rm => some ⟨c, .store .byte, false, u, true, rn, rd, .reg amt ty rm⟩
  | _ => none

/-- The fields of the 16 halfword and signed transfers of formats A11 and A12. -/
def halfForm : Instr → Option TransferForm
  | .strhRegPre c u w rn rd _ rm => some ⟨c, .store .half, true, u, w, rn, rd, .plain rm⟩
  | .strhRegPost c u rn rd _ rm => some ⟨c, .store .half, false, u, false, rn, rd, .plain rm⟩
  | .strhImmPre c u w rn rd hi lo => some ⟨c, .store .half, true, u, w, rn, rd, .imm (hi.setWidth 32 <<< 4 ||| lo.setWidth 32)⟩
  | .strhImmPost c u rn rd hi lo => some ⟨c, .store .half, false, u, false, rn, rd, .imm (hi.setWidth 32 <<< 4 ||| lo.setWidth 32)⟩
  | .ldrhRegPre c u w rn rd _ rm => some ⟨c, .load .half, true, u, w, rn, rd, .plain rm⟩
  | .ldrhRegPost c u rn rd _ rm => some ⟨c, .load .half, false, u, false, rn, rd, .plain rm⟩
  | .ldrhImmPre c u w rn rd hi lo => some ⟨c, .load .half, true, u, w, rn, rd, .imm (hi.setWidth 32 <<< 4 ||| lo.setWidth 32)⟩
  | .ldrhImmPost c u rn rd hi lo => some ⟨c, .load .half, false, u, false, rn, rd, .imm (hi.setWidth 32 <<< 4 ||| lo.setWidth 32)⟩
  | .ldrsbRegPre c u w rn rd _ rm => some ⟨c, .load .signedByte, true, u, w, rn, rd, .plain rm⟩
  | .ldrsbRegPost c u rn rd _ rm => some ⟨c, .load .signedByte, false, u, false, rn, rd, .plain rm⟩
  | .ldrsbImmPre c u w rn rd hi lo => some ⟨c, .load .signedByte, true, u, w, rn, rd, .imm (hi.setWidth 32 <<< 4 ||| lo.setWidth 32)⟩
  | .ldrsbImmPost c u rn rd hi lo => some ⟨c, .load .signedByte, false, u, false, rn, rd, .imm (hi.setWidth 32 <<< 4 ||| lo.setWidth 32)⟩
  | .ldrshRegPre c u w rn rd _ rm => some ⟨c, .load .signedHalf, true, u, w, rn, rd, .plain rm⟩
  | .ldrshRegPost c u rn rd _ rm => some ⟨c, .load .signedHalf, false, u, false, rn, rd, .plain rm⟩
  | .ldrshImmPre c u w rn rd hi lo => some ⟨c, .load .signedHalf, true, u, w, rn, rd, .imm (hi.setWidth 32 <<< 4 ||| lo.setWidth 32)⟩
  | .ldrshImmPost c u rn rd hi lo => some ⟨c, .load .signedHalf, false, u, false, rn, rd, .imm (hi.setWidth 32 <<< 4 ||| lo.setWidth 32)⟩
  | _ => none

/-! ### Block transfers (R290) -/

/-- The registers of a block transfer of mode `m`, each with the word that is loaded into it: the register at place `k`
of the list is at `start + 4*k`, the low address bits ignored. -/
def blockLoads (m : BitVec 5) (rs : List Reg) (start : Word) (mem : Memory) : List RegWrite :=
  rs.zipIdx.map fun x => (physReg m x.1, mem.read32 (busAddr (start + BitVec.ofNat 32 (4 * x.2)) .word))

/-- The reads of a block transfer, the latest first. -/
def blockReads (n : Nat) (start : Word) : List Event :=
  ((List.range n).map fun k => Event.read (busAddr (start + BitVec.ofNat 32 (4 * k)) .word) .word).reverse

/-- The words of a store multiple, each with its address: the value of a register of mode `m`, once the first store has
been made that after the write-back `wb`; r15 stores the value it reads as. -/
def blockStores (m : BitVec 5) (rs : List Reg) (start : Word) (wb : List RegWrite) (s : State) : List (Word × Word) :=
  rs.zipIdx.map fun x =>
    (busAddr (start + BitVec.ofNat 32 (4 * x.2)) .word,
      match physReg m x.1 with
      | none => s.r15
      | some q => valueAfter (if x.2 = 0 then [] else wb) q (s.regs.get q))

/-- The writes of a store multiple, the latest first. -/
def blockWrites (ws : List (Word × Word)) : List Event := (ws.map fun w => Event.write w.1 .word w.2).reverse

/-! ### THUMB forms -/

/-- The THUMB shifts, and MUL, whose carry is 0: Rd, the result and the carry (R330 to R332, R347 to R349, R352,
R358). -/
def thumbShiftForm (s : State) : Instr → Option (LowReg × Word × Bool)
  | .tLslImm amt rs rd => some (rd, shiftImm .lsl (s.reg (lowReg rs)) amt s.cpsr.c)
  | .tLsrImm amt rs rd => some (rd, shiftImm .lsr (s.reg (lowReg rs)) amt s.cpsr.c)
  | .tAsrImm amt rs rd => some (rd, shiftImm .asr (s.reg (lowReg rs)) amt s.cpsr.c)
  | .tLslReg rs rd => some (rd, shiftReg .lsl (s.reg (lowReg rd)) ((s.reg (lowReg rs)).setWidth 8) s.cpsr.c)
  | .tLsrReg rs rd => some (rd, shiftReg .lsr (s.reg (lowReg rd)) ((s.reg (lowReg rs)).setWidth 8) s.cpsr.c)
  | .tAsrReg rs rd => some (rd, shiftReg .asr (s.reg (lowReg rd)) ((s.reg (lowReg rs)).setWidth 8) s.cpsr.c)
  | .tRorReg rs rd => some (rd, shiftReg .ror (s.reg (lowReg rd)) ((s.reg (lowReg rs)).setWidth 8) s.cpsr.c)
  | .tMul rs rd => some (rd, (s.reg (lowReg rd) * s.reg (lowReg rs), false))
  | _ => none

/-- The THUMB logical operations: Rd and the result (R337, R345, R346, R357, R359, R360). -/
def thumbLogicalForm (s : State) : Instr → Option (LowReg × Word)
  | .tMovImm8 rd imm => some (rd, imm.setWidth 32)
  | .tAnd rs rd => some (rd, s.reg (lowReg rd) &&& s.reg (lowReg rs))
  | .tEor rs rd => some (rd, s.reg (lowReg rd) ^^^ s.reg (lowReg rs))
  | .tOrr rs rd => some (rd, s.reg (lowReg rd) ||| s.reg (lowReg rs))
  | .tBic rs rd => some (rd, s.reg (lowReg rd) &&& ~~~s.reg (lowReg rs))
  | .tMvn rs rd => some (rd, ~~~s.reg (lowReg rs))
  | _ => none

/-- The THUMB arithmetic operations: Rd, the result and the flags (R333 to R336, R339, R340, R350, R351, R354). -/
def thumbArithForm (s : State) : Instr → Option (LowReg × Flagged)
  | .tAddReg rn rs rd => some (rd, addFlags (s.reg (lowReg rs)) (s.reg (lowReg rn)) false)
  | .tSubReg rn rs rd => some (rd, subFlags (s.reg (lowReg rs)) (s.reg (lowReg rn)) true)
  | .tAddImm3 imm rs rd => some (rd, addFlags (s.reg (lowReg rs)) (imm.setWidth 32) false)
  | .tSubImm3 imm rs rd => some (rd, subFlags (s.reg (lowReg rs)) (imm.setWidth 32) true)
  | .tAddImm8 rd imm => some (rd, addFlags (s.reg (lowReg rd)) (imm.setWidth 32) false)
  | .tSubImm8 rd imm => some (rd, subFlags (s.reg (lowReg rd)) (imm.setWidth 32) true)
  | .tAdc rs rd => some (rd, addFlags (s.reg (lowReg rd)) (s.reg (lowReg rs)) s.cpsr.c)
  | .tSbc rs rd => some (rd, subFlags (s.reg (lowReg rd)) (s.reg (lowReg rs)) s.cpsr.c)
  | .tNeg rs rd => some (rd, subFlags 0#32 (s.reg (lowReg rs)) true)
  | _ => none

/-- The THUMB comparisons: the four flags (R338, R355, R356, R362). -/
def thumbCompareForm (s : State) : Instr → Option Flagged
  | .tCmpImm8 rd imm => some (subFlags (s.reg (lowReg rd)) (imm.setWidth 32) true)
  | .tCmp rs rd => some (subFlags (s.reg (lowReg rd)) (s.reg (lowReg rs)) true)
  | .tCmn rs rd => some (addFlags (s.reg (lowReg rd)) (s.reg (lowReg rs)) false)
  | .tCmpHi h1 h2 rs rd => some (subFlags (s.reg (highReg h1 rd)) (s.reg (highReg h2 rs)) true)
  | _ => none

/-- The THUMB operations that write one register and no flag: the register and the value (R361, R363, R365 to
R368). -/
def thumbMoveForm (s : State) : Instr → Option (Reg × Word)
  | .tAddHi h1 h2 rs rd => some (highReg h1 rd, s.reg (highReg h1 rd) + s.reg (highReg h2 rs))
  | .tMovHi h1 h2 rs rd => some (highReg h1 rd, s.reg (highReg h2 rs))
  | .tAddPc rd off => some (lowReg rd, (s.r15 &&& 0xFFFFFFFC#32) + off.setWidth 32 <<< 2)
  | .tAddSp rd off => some (lowReg rd, s.reg 13#4 + off.setWidth 32 <<< 2)
  | .tSpPlus off => some (13#4, s.reg 13#4 + off.setWidth 32 <<< 2)
  | .tSpMinus off => some (13#4, s.reg 13#4 - off.setWidth 32 <<< 2)
  | _ => none

/-- The THUMB loads and stores of one register: the access, Rd and the address (R390 to R406). -/
def thumbTransferForm (s : State) : Instr → Option (Access × LowReg × Word)
  | .tLdrPc rd off => some (.load .word, rd, (s.r15 &&& 0xFFFFFFFC#32) + off.setWidth 32 <<< 2)
  | .tStrReg ro rb rd => some (.store .word, rd, s.reg (lowReg rb) + s.reg (lowReg ro))
  | .tStrbReg ro rb rd => some (.store .byte, rd, s.reg (lowReg rb) + s.reg (lowReg ro))
  | .tLdrReg ro rb rd => some (.load .word, rd, s.reg (lowReg rb) + s.reg (lowReg ro))
  | .tLdrbReg ro rb rd => some (.load .byte, rd, s.reg (lowReg rb) + s.reg (lowReg ro))
  | .tStrhReg ro rb rd => some (.store .half, rd, s.reg (lowReg rb) + s.reg (lowReg ro))
  | .tLdsbReg ro rb rd => some (.load .signedByte, rd, s.reg (lowReg rb) + s.reg (lowReg ro))
  | .tLdrhReg ro rb rd => some (.load .half, rd, s.reg (lowReg rb) + s.reg (lowReg ro))
  | .tLdshReg ro rb rd => some (.load .signedHalf, rd, s.reg (lowReg rb) + s.reg (lowReg ro))
  | .tStrImm off rb rd => some (.store .word, rd, s.reg (lowReg rb) + off.setWidth 32 <<< 2)
  | .tLdrImm off rb rd => some (.load .word, rd, s.reg (lowReg rb) + off.setWidth 32 <<< 2)
  | .tStrbImm off rb rd => some (.store .byte, rd, s.reg (lowReg rb) + off.setWidth 32)
  | .tLdrbImm off rb rd => some (.load .byte, rd, s.reg (lowReg rb) + off.setWidth 32)
  | .tStrhImm off rb rd => some (.store .half, rd, s.reg (lowReg rb) + off.setWidth 32 <<< 1)
  | .tLdrhImm off rb rd => some (.load .half, rd, s.reg (lowReg rb) + off.setWidth 32 <<< 1)
  | .tStrSp rd off => some (.store .word, rd, s.reg 13#4 + off.setWidth 32 <<< 2)
  | .tLdrSp rd off => some (.load .word, rd, s.reg 13#4 + off.setWidth 32 <<< 2)
  | _ => none

/-- The THUMB conditional branches: the condition code and the offset (R440). -/
def thumbCondForm : Instr → Option (CondCode × BitVec 8)
  | .tBeq off => some (0#4, off)
  | .tBne off => some (1#4, off)
  | .tBcs off => some (2#4, off)
  | .tBcc off => some (3#4, off)
  | .tBmi off => some (4#4, off)
  | .tBpl off => some (5#4, off)
  | .tBvs off => some (6#4, off)
  | .tBvc off => some (7#4, off)
  | .tBhi off => some (8#4, off)
  | .tBls off => some (9#4, off)
  | .tBge off => some (10#4, off)
  | .tBlt off => some (11#4, off)
  | .tBgt off => some (12#4, off)
  | .tBle off => some (13#4, off)
  | _ => none

/-! ### Undefined encodings (R463) -/

/-- The encodings that report Undefined: the kind and the word or halfword. -/
def undefinedForm : Instr → Option (UndefKind × Code)
  | .undMulSpace w => some (.decode, .arm w)
  | .undTestReg w => some (.decode, .arm w)
  | .undTestRsr w => some (.decode, .arm w)
  | .undTestImm w => some (.decode, .arm w)
  | .undClass011 w => some (.decode, .arm w)
  | .undCopTransfer w => some (.trap, .arm w)
  | .undCopOp w => some (.trap, .arm w)
  | .tUndCond14 w => some (.trap, .thumb w)
  | .tUndB1 w => some (.decode, .thumb w)
  | .tUndB2 w => some (.decode, .thumb w)
  | .tUndB6 w => some (.decode, .thumb w)
  | .tUndB8 w => some (.decode, .thumb w)
  | .tUndBe w => some (.decode, .thumb w)
  | .tUndE8 w => some (.decode, .thumb w)
  | _ => none

/-! ### The condition of an instruction -/

/-- The condition code that gates an instruction: bits 31 to 28 of an ARM word; a THUMB instruction always executes, AL
(R143). The conditional branches of THUMB test theirs as part of their effect. -/
def condOf : Instr → CondCode
  | .andImm c _ _ _ _ _ => c
  | .andReg c _ _ _ _ _ _ => c
  | .andRsr c _ _ _ _ _ _ => c
  | .eorImm c _ _ _ _ _ => c
  | .eorReg c _ _ _ _ _ _ => c
  | .eorRsr c _ _ _ _ _ _ => c
  | .subImm c _ _ _ _ _ => c
  | .subReg c _ _ _ _ _ _ => c
  | .subRsr c _ _ _ _ _ _ => c
  | .rsbImm c _ _ _ _ _ => c
  | .rsbReg c _ _ _ _ _ _ => c
  | .rsbRsr c _ _ _ _ _ _ => c
  | .addImm c _ _ _ _ _ => c
  | .addReg c _ _ _ _ _ _ => c
  | .addRsr c _ _ _ _ _ _ => c
  | .adcImm c _ _ _ _ _ => c
  | .adcReg c _ _ _ _ _ _ => c
  | .adcRsr c _ _ _ _ _ _ => c
  | .sbcImm c _ _ _ _ _ => c
  | .sbcReg c _ _ _ _ _ _ => c
  | .sbcRsr c _ _ _ _ _ _ => c
  | .rscImm c _ _ _ _ _ => c
  | .rscReg c _ _ _ _ _ _ => c
  | .rscRsr c _ _ _ _ _ _ => c
  | .tstImm c _ _ _ _ => c
  | .tstReg c _ _ _ _ _ => c
  | .tstRsr c _ _ _ _ _ => c
  | .teqImm c _ _ _ _ => c
  | .teqReg c _ _ _ _ _ => c
  | .teqRsr c _ _ _ _ _ => c
  | .cmpImm c _ _ _ _ => c
  | .cmpReg c _ _ _ _ _ => c
  | .cmpRsr c _ _ _ _ _ => c
  | .cmnImm c _ _ _ _ => c
  | .cmnReg c _ _ _ _ _ => c
  | .cmnRsr c _ _ _ _ _ => c
  | .orrImm c _ _ _ _ _ => c
  | .orrReg c _ _ _ _ _ _ => c
  | .orrRsr c _ _ _ _ _ _ => c
  | .movImm c _ _ _ _ _ => c
  | .movReg c _ _ _ _ _ _ => c
  | .movRsr c _ _ _ _ _ _ => c
  | .bicImm c _ _ _ _ _ => c
  | .bicReg c _ _ _ _ _ _ => c
  | .bicRsr c _ _ _ _ _ _ => c
  | .mvnImm c _ _ _ _ _ => c
  | .mvnReg c _ _ _ _ _ _ => c
  | .mvnRsr c _ _ _ _ _ _ => c
  | .mrs c _ _ => c
  | .msrReg c _ _ _ _ _ => c
  | .msrImm c _ _ _ _ _ _ => c
  | .bx c _ => c
  | .mul c _ _ _ _ _ => c
  | .mla c _ _ _ _ _ => c
  | .umull c _ _ _ _ _ => c
  | .umlal c _ _ _ _ _ => c
  | .smull c _ _ _ _ _ => c
  | .smlal c _ _ _ _ _ => c
  | .swp c _ _ _ _ => c
  | .swpb c _ _ _ _ => c
  | .strhRegPre c _ _ _ _ _ _ => c
  | .strhRegPost c _ _ _ _ _ => c
  | .strhImmPre c _ _ _ _ _ _ => c
  | .strhImmPost c _ _ _ _ _ => c
  | .ldrhRegPre c _ _ _ _ _ _ => c
  | .ldrhRegPost c _ _ _ _ _ => c
  | .ldrhImmPre c _ _ _ _ _ _ => c
  | .ldrhImmPost c _ _ _ _ _ => c
  | .ldrsbRegPre c _ _ _ _ _ _ => c
  | .ldrsbRegPost c _ _ _ _ _ => c
  | .ldrsbImmPre c _ _ _ _ _ _ => c
  | .ldrsbImmPost c _ _ _ _ _ => c
  | .ldrshRegPre c _ _ _ _ _ _ => c
  | .ldrshRegPost c _ _ _ _ _ => c
  | .ldrshImmPre c _ _ _ _ _ _ => c
  | .ldrshImmPost c _ _ _ _ _ => c
  | .ldrImmPre c _ _ _ _ _ => c
  | .ldrImmPost c _ _ _ _ => c
  | .ldrtImm c _ _ _ _ => c
  | .ldrRegPre c _ _ _ _ _ _ _ => c
  | .ldrRegPost c _ _ _ _ _ _ => c
  | .ldrtReg c _ _ _ _ _ _ => c
  | .ldrbImmPre c _ _ _ _ _ => c
  | .ldrbImmPost c _ _ _ _ => c
  | .ldrbtImm c _ _ _ _ => c
  | .ldrbRegPre c _ _ _ _ _ _ _ => c
  | .ldrbRegPost c _ _ _ _ _ _ => c
  | .ldrbtReg c _ _ _ _ _ _ => c
  | .strImmPre c _ _ _ _ _ => c
  | .strImmPost c _ _ _ _ => c
  | .strtImm c _ _ _ _ => c
  | .strRegPre c _ _ _ _ _ _ _ => c
  | .strRegPost c _ _ _ _ _ _ => c
  | .strtReg c _ _ _ _ _ _ => c
  | .strbImmPre c _ _ _ _ _ => c
  | .strbImmPost c _ _ _ _ => c
  | .strbtImm c _ _ _ _ => c
  | .strbRegPre c _ _ _ _ _ _ _ => c
  | .strbRegPost c _ _ _ _ _ _ => c
  | .strbtReg c _ _ _ _ _ _ => c
  | .ldm c _ _ _ _ _ _ => c
  | .stm c _ _ _ _ _ _ => c
  | .b c _ => c
  | .bl c _ => c
  | .swi c _ => c
  | .undMulSpace w => w.extractLsb' 28 4
  | .undTestReg w => w.extractLsb' 28 4
  | .undTestRsr w => w.extractLsb' 28 4
  | .undTestImm w => w.extractLsb' 28 4
  | .undClass011 w => w.extractLsb' 28 4
  | .undCopTransfer w => w.extractLsb' 28 4
  | .undCopOp w => w.extractLsb' 28 4
  | _ => 14#4

/-! ### What an instruction may touch -/

/-- The software interrupts. -/
def isSwi : Instr → Bool
  | .swi .. | .tSwi .. => true
  | _ => false

/-- The data address and width that an instruction's alignment is checked at: of a block transfer, `start` (R290); none
for an instruction that accesses no data. -/
def accessOf (s : State) (i : Instr) : Option (Word × Width) :=
  match singleForm i, halfForm i, thumbTransferForm s i with
  | some f, _, _ => some (f.addr s, f.access.width)
  | _, some f, _ => some (f.addr s, f.access.width)
  | _, _, some (acc, _, a) => some (a, acc.width)
  | _, _, _ =>
    match i with
    | .swp _ rn _ _ _ => some (s.reg rn, .word)
    | .swpb _ rn _ _ _ => some (s.reg rn, .byte)
    | .ldm _ p u _ _ rn list => some (blockStart p u (s.reg rn) (regsOf list).length, .word)
    | .stm _ p u _ _ rn list => some (blockStart p u (s.reg rn) (regsOf list).length, .word)
    | .tPush r list => some (s.reg 13#4 - BitVec.ofNat 32 (4 * (pushRegs r list).length), .word)
    | .tPop _ _ => some (s.reg 13#4, .word)
    | .tStmia rb _ => some (s.reg (lowReg rb), .word)
    | .tLdmia rb _ => some (s.reg (lowReg rb), .word)
    | _ => none

/-- The instructions that store to memory (R80). -/
def storesToMemory : Instr → Bool
  | .swp .. | .swpb .. | .strhRegPre .. | .strhRegPost .. | .strhImmPre .. | .strhImmPost .. | .strImmPre .. | .strImmPost ..
  | .strtImm .. | .strRegPre .. | .strRegPost .. | .strtReg .. | .strbImmPre .. | .strbImmPost .. | .strbtImm .. | .strbRegPre ..
  | .strbRegPost .. | .strbtReg .. | .stm .. | .tStrReg .. | .tStrhReg .. | .tStrbReg .. | .tStrImm .. | .tStrbImm ..
  | .tStrhImm .. | .tStrSp .. | .tPush .. | .tStmia .. => true
  | _ => false

/-- The instructions that write a condition flag, but for a software interrupt, whose service may (R43). -/
def writesFlags : Instr → Bool
  | .andImm _ sf _ _ _ _ => sf
  | .andReg _ sf _ _ _ _ _ => sf
  | .andRsr _ sf _ _ _ _ _ => sf
  | .eorImm _ sf _ _ _ _ => sf
  | .eorReg _ sf _ _ _ _ _ => sf
  | .eorRsr _ sf _ _ _ _ _ => sf
  | .subImm _ sf _ _ _ _ => sf
  | .subReg _ sf _ _ _ _ _ => sf
  | .subRsr _ sf _ _ _ _ _ => sf
  | .rsbImm _ sf _ _ _ _ => sf
  | .rsbReg _ sf _ _ _ _ _ => sf
  | .rsbRsr _ sf _ _ _ _ _ => sf
  | .addImm _ sf _ _ _ _ => sf
  | .addReg _ sf _ _ _ _ _ => sf
  | .addRsr _ sf _ _ _ _ _ => sf
  | .adcImm _ sf _ _ _ _ => sf
  | .adcReg _ sf _ _ _ _ _ => sf
  | .adcRsr _ sf _ _ _ _ _ => sf
  | .sbcImm _ sf _ _ _ _ => sf
  | .sbcReg _ sf _ _ _ _ _ => sf
  | .sbcRsr _ sf _ _ _ _ _ => sf
  | .rscImm _ sf _ _ _ _ => sf
  | .rscReg _ sf _ _ _ _ _ => sf
  | .rscRsr _ sf _ _ _ _ _ => sf
  | .orrImm _ sf _ _ _ _ => sf
  | .orrReg _ sf _ _ _ _ _ => sf
  | .orrRsr _ sf _ _ _ _ _ => sf
  | .movImm _ sf _ _ _ _ => sf
  | .movReg _ sf _ _ _ _ _ => sf
  | .movRsr _ sf _ _ _ _ _ => sf
  | .bicImm _ sf _ _ _ _ => sf
  | .bicReg _ sf _ _ _ _ _ => sf
  | .bicRsr _ sf _ _ _ _ _ => sf
  | .mvnImm _ sf _ _ _ _ => sf
  | .mvnReg _ sf _ _ _ _ _ => sf
  | .mvnRsr _ sf _ _ _ _ _ => sf
  | .tstImm .. | .tstReg .. | .tstRsr .. | .teqImm .. | .teqReg .. | .teqRsr .. | .cmpImm .. | .cmpReg ..
  | .cmpRsr .. | .cmnImm .. | .cmnReg .. | .cmnRsr .. => true
  | .mul _ sf _ _ _ _ => sf
  | .mla _ sf _ _ _ _ => sf
  | .umull _ sf _ _ _ _ => sf
  | .umlal _ sf _ _ _ _ => sf
  | .smull _ sf _ _ _ _ => sf
  | .smlal _ sf _ _ _ _ => sf
  | .msrReg _ p ff _ _ _ => !p && ff
  | .msrImm _ p ff _ _ _ _ => !p && ff
  | .ldm _ _ _ ub _ _ list => ub && list.getLsbD 15
  | .tLslImm .. | .tLsrImm .. | .tAsrImm .. | .tAddReg .. | .tSubReg .. | .tAddImm3 .. | .tSubImm3 ..
  | .tMovImm8 .. | .tCmpImm8 .. | .tAddImm8 .. | .tSubImm8 .. | .tAnd .. | .tEor .. | .tLslReg ..
  | .tLsrReg .. | .tAsrReg .. | .tAdc .. | .tSbc .. | .tRorReg .. | .tTst .. | .tNeg ..
  | .tCmp .. | .tCmn .. | .tOrr .. | .tMul .. | .tBic .. | .tMvn .. | .tCmpHi .. => true
  | _ => false

/-- The instructions that may write the control bits of the CPSR, M, I, F and T, but for a software interrupt: the
control field of the CPSR by MSR, the reload of a return from exception, and T by BX (R29, R201, R298, R364). -/
def writesControl : Instr → Bool
  | .andImm _ sf _ rd _ _ => sf && decide (rd = 15#4)
  | .andReg _ sf _ rd _ _ _ => sf && decide (rd = 15#4)
  | .andRsr _ sf _ rd _ _ _ => sf && decide (rd = 15#4)
  | .eorImm _ sf _ rd _ _ => sf && decide (rd = 15#4)
  | .eorReg _ sf _ rd _ _ _ => sf && decide (rd = 15#4)
  | .eorRsr _ sf _ rd _ _ _ => sf && decide (rd = 15#4)
  | .subImm _ sf _ rd _ _ => sf && decide (rd = 15#4)
  | .subReg _ sf _ rd _ _ _ => sf && decide (rd = 15#4)
  | .subRsr _ sf _ rd _ _ _ => sf && decide (rd = 15#4)
  | .rsbImm _ sf _ rd _ _ => sf && decide (rd = 15#4)
  | .rsbReg _ sf _ rd _ _ _ => sf && decide (rd = 15#4)
  | .rsbRsr _ sf _ rd _ _ _ => sf && decide (rd = 15#4)
  | .addImm _ sf _ rd _ _ => sf && decide (rd = 15#4)
  | .addReg _ sf _ rd _ _ _ => sf && decide (rd = 15#4)
  | .addRsr _ sf _ rd _ _ _ => sf && decide (rd = 15#4)
  | .adcImm _ sf _ rd _ _ => sf && decide (rd = 15#4)
  | .adcReg _ sf _ rd _ _ _ => sf && decide (rd = 15#4)
  | .adcRsr _ sf _ rd _ _ _ => sf && decide (rd = 15#4)
  | .sbcImm _ sf _ rd _ _ => sf && decide (rd = 15#4)
  | .sbcReg _ sf _ rd _ _ _ => sf && decide (rd = 15#4)
  | .sbcRsr _ sf _ rd _ _ _ => sf && decide (rd = 15#4)
  | .rscImm _ sf _ rd _ _ => sf && decide (rd = 15#4)
  | .rscReg _ sf _ rd _ _ _ => sf && decide (rd = 15#4)
  | .rscRsr _ sf _ rd _ _ _ => sf && decide (rd = 15#4)
  | .orrImm _ sf _ rd _ _ => sf && decide (rd = 15#4)
  | .orrReg _ sf _ rd _ _ _ => sf && decide (rd = 15#4)
  | .orrRsr _ sf _ rd _ _ _ => sf && decide (rd = 15#4)
  | .movImm _ sf _ rd _ _ => sf && decide (rd = 15#4)
  | .movReg _ sf _ rd _ _ _ => sf && decide (rd = 15#4)
  | .movRsr _ sf _ rd _ _ _ => sf && decide (rd = 15#4)
  | .bicImm _ sf _ rd _ _ => sf && decide (rd = 15#4)
  | .bicReg _ sf _ rd _ _ _ => sf && decide (rd = 15#4)
  | .bicRsr _ sf _ rd _ _ _ => sf && decide (rd = 15#4)
  | .mvnImm _ sf _ rd _ _ => sf && decide (rd = 15#4)
  | .mvnReg _ sf _ rd _ _ _ => sf && decide (rd = 15#4)
  | .mvnRsr _ sf _ rd _ _ _ => sf && decide (rd = 15#4)
  | .msrReg _ p _ _ fc _ => !p && fc
  | .msrImm _ p _ _ fc _ _ => !p && fc
  | .ldm _ _ _ ub _ _ list => ub && list.getLsbD 15
  | .bx .. | .tBx .. => true
  | _ => false

/-- The instructions that may write a saved status register, but for a software interrupt (R201). -/
def writesSaved : Instr → Bool
  | .msrReg _ p _ _ _ _ => p
  | .msrImm _ p _ _ _ _ _ => p
  | _ => false

/-- The instructions that may branch: a branch, or a write of r15 (R34). -/
def mayBranch : Instr → Bool
  | .andImm _ _ _ rd _ _ => decide (rd = 15#4)
  | .andReg _ _ _ rd _ _ _ => decide (rd = 15#4)
  | .andRsr _ _ _ rd _ _ _ => decide (rd = 15#4)
  | .eorImm _ _ _ rd _ _ => decide (rd = 15#4)
  | .eorReg _ _ _ rd _ _ _ => decide (rd = 15#4)
  | .eorRsr _ _ _ rd _ _ _ => decide (rd = 15#4)
  | .subImm _ _ _ rd _ _ => decide (rd = 15#4)
  | .subReg _ _ _ rd _ _ _ => decide (rd = 15#4)
  | .subRsr _ _ _ rd _ _ _ => decide (rd = 15#4)
  | .rsbImm _ _ _ rd _ _ => decide (rd = 15#4)
  | .rsbReg _ _ _ rd _ _ _ => decide (rd = 15#4)
  | .rsbRsr _ _ _ rd _ _ _ => decide (rd = 15#4)
  | .addImm _ _ _ rd _ _ => decide (rd = 15#4)
  | .addReg _ _ _ rd _ _ _ => decide (rd = 15#4)
  | .addRsr _ _ _ rd _ _ _ => decide (rd = 15#4)
  | .adcImm _ _ _ rd _ _ => decide (rd = 15#4)
  | .adcReg _ _ _ rd _ _ _ => decide (rd = 15#4)
  | .adcRsr _ _ _ rd _ _ _ => decide (rd = 15#4)
  | .sbcImm _ _ _ rd _ _ => decide (rd = 15#4)
  | .sbcReg _ _ _ rd _ _ _ => decide (rd = 15#4)
  | .sbcRsr _ _ _ rd _ _ _ => decide (rd = 15#4)
  | .rscImm _ _ _ rd _ _ => decide (rd = 15#4)
  | .rscReg _ _ _ rd _ _ _ => decide (rd = 15#4)
  | .rscRsr _ _ _ rd _ _ _ => decide (rd = 15#4)
  | .orrImm _ _ _ rd _ _ => decide (rd = 15#4)
  | .orrReg _ _ _ rd _ _ _ => decide (rd = 15#4)
  | .orrRsr _ _ _ rd _ _ _ => decide (rd = 15#4)
  | .movImm _ _ _ rd _ _ => decide (rd = 15#4)
  | .movReg _ _ _ rd _ _ _ => decide (rd = 15#4)
  | .movRsr _ _ _ rd _ _ _ => decide (rd = 15#4)
  | .bicImm _ _ _ rd _ _ => decide (rd = 15#4)
  | .bicReg _ _ _ rd _ _ _ => decide (rd = 15#4)
  | .bicRsr _ _ _ rd _ _ _ => decide (rd = 15#4)
  | .mvnImm _ _ _ rd _ _ => decide (rd = 15#4)
  | .mvnReg _ _ _ rd _ _ _ => decide (rd = 15#4)
  | .mvnRsr _ _ _ rd _ _ _ => decide (rd = 15#4)
  | .mrs _ _ rd => decide (rd = 15#4)
  | .mul _ _ rd _ _ _ => decide (rd = 15#4)
  | .mla _ _ rd _ _ _ => decide (rd = 15#4)
  | .swp _ _ rd _ _ => decide (rd = 15#4)
  | .swpb _ _ rd _ _ => decide (rd = 15#4)
  | .umull _ _ rdHi rdLo _ _ => decide (rdHi = 15#4) || decide (rdLo = 15#4)
  | .umlal _ _ rdHi rdLo _ _ => decide (rdHi = 15#4) || decide (rdLo = 15#4)
  | .smull _ _ rdHi rdLo _ _ => decide (rdHi = 15#4) || decide (rdLo = 15#4)
  | .smlal _ _ rdHi rdLo _ _ => decide (rdHi = 15#4) || decide (rdLo = 15#4)
  | .strhRegPre _ _ w rn _ _ _ => w && decide (rn = 15#4)
  | .strhRegPost _ _ rn _ _ _ => decide (rn = 15#4)
  | .strhImmPre _ _ w rn _ _ _ => w && decide (rn = 15#4)
  | .strhImmPost _ _ rn _ _ _ => decide (rn = 15#4)
  | .ldrhRegPre _ _ w rn rd _ _ => decide (rd = 15#4) || w && decide (rn = 15#4)
  | .ldrhRegPost _ _ rn rd _ _ => decide (rd = 15#4) || decide (rn = 15#4)
  | .ldrhImmPre _ _ w rn rd _ _ => decide (rd = 15#4) || w && decide (rn = 15#4)
  | .ldrhImmPost _ _ rn rd _ _ => decide (rd = 15#4) || decide (rn = 15#4)
  | .ldrsbRegPre _ _ w rn rd _ _ => decide (rd = 15#4) || w && decide (rn = 15#4)
  | .ldrsbRegPost _ _ rn rd _ _ => decide (rd = 15#4) || decide (rn = 15#4)
  | .ldrsbImmPre _ _ w rn rd _ _ => decide (rd = 15#4) || w && decide (rn = 15#4)
  | .ldrsbImmPost _ _ rn rd _ _ => decide (rd = 15#4) || decide (rn = 15#4)
  | .ldrshRegPre _ _ w rn rd _ _ => decide (rd = 15#4) || w && decide (rn = 15#4)
  | .ldrshRegPost _ _ rn rd _ _ => decide (rd = 15#4) || decide (rn = 15#4)
  | .ldrshImmPre _ _ w rn rd _ _ => decide (rd = 15#4) || w && decide (rn = 15#4)
  | .ldrshImmPost _ _ rn rd _ _ => decide (rd = 15#4) || decide (rn = 15#4)
  | .ldrImmPre _ _ w rn rd _ => decide (rd = 15#4) || w && decide (rn = 15#4)
  | .ldrImmPost _ _ rn rd _ => decide (rd = 15#4) || decide (rn = 15#4)
  | .ldrtImm _ _ rn rd _ => decide (rd = 15#4) || decide (rn = 15#4)
  | .ldrRegPre _ _ w rn rd _ _ _ => decide (rd = 15#4) || w && decide (rn = 15#4)
  | .ldrRegPost _ _ rn rd _ _ _ => decide (rd = 15#4) || decide (rn = 15#4)
  | .ldrtReg _ _ rn rd _ _ _ => decide (rd = 15#4) || decide (rn = 15#4)
  | .ldrbImmPre _ _ w rn rd _ => decide (rd = 15#4) || w && decide (rn = 15#4)
  | .ldrbImmPost _ _ rn rd _ => decide (rd = 15#4) || decide (rn = 15#4)
  | .ldrbtImm _ _ rn rd _ => decide (rd = 15#4) || decide (rn = 15#4)
  | .ldrbRegPre _ _ w rn rd _ _ _ => decide (rd = 15#4) || w && decide (rn = 15#4)
  | .ldrbRegPost _ _ rn rd _ _ _ => decide (rd = 15#4) || decide (rn = 15#4)
  | .ldrbtReg _ _ rn rd _ _ _ => decide (rd = 15#4) || decide (rn = 15#4)
  | .strImmPre _ _ w rn _ _ => w && decide (rn = 15#4)
  | .strImmPost _ _ rn _ _ => decide (rn = 15#4)
  | .strtImm _ _ rn _ _ => decide (rn = 15#4)
  | .strRegPre _ _ w rn _ _ _ _ => w && decide (rn = 15#4)
  | .strRegPost _ _ rn _ _ _ _ => decide (rn = 15#4)
  | .strtReg _ _ rn _ _ _ _ => decide (rn = 15#4)
  | .strbImmPre _ _ w rn _ _ => w && decide (rn = 15#4)
  | .strbImmPost _ _ rn _ _ => decide (rn = 15#4)
  | .strbtImm _ _ rn _ _ => decide (rn = 15#4)
  | .strbRegPre _ _ w rn _ _ _ _ => w && decide (rn = 15#4)
  | .strbRegPost _ _ rn _ _ _ _ => decide (rn = 15#4)
  | .strbtReg _ _ rn _ _ _ _ => decide (rn = 15#4)
  | .ldm _ _ _ _ w rn list => list.getLsbD 15 || w && decide (rn = 15#4)
  | .stm _ _ _ _ w rn _ => w && decide (rn = 15#4)
  | .bx .. | .b .. | .bl .. | .swi .. | .tSwi .. | .tBx .. | .tB .. | .tBlLow .. => true
  | .tAddHi h1 _ _ rd => decide (highReg h1 rd = 15#4)
  | .tMovHi h1 _ _ rd => decide (highReg h1 rd = 15#4)
  | .tPop r _ => r
  | .tBeq .. | .tBne .. | .tBcs .. | .tBcc .. | .tBmi .. | .tBpl .. | .tBvs ..
  | .tBvc .. | .tBhi .. | .tBls .. | .tBge .. | .tBlt .. | .tBgt .. | .tBle .. => true
  | _ => false

/-! ### Invariants -/

/-- The memory is in canonical form. -/
def Canonical (s : State) : Prop := s.mem.wf = true

/-- The program counter is a multiple of the instruction size, and nothing outside the instructions can break that: the
reset address is a multiple of 4 (R491), no external service answers a software interrupt, and the host does not write
the CPSR (R38). -/
structure PcSound (s : State) : Prop where
  aligned : s.pcAligned = true
  resetPc : Aligned s.params.resetPc .word
  service : s.params.swi ≠ .external
  host : ∀ p, Turn.host (.writeCpsr p) ∉ s.schedule

/-- It is the core's turn. -/
def coreTurn (s : State) : Bool :=
  match s.schedule with
  | .host _ :: _ => false
  | _ => true

/-- The instruction at the program counter. -/
def nextInstr (s : State) : Instr := decode (fetchCode s)

end Sys2Proof.Machine
end

