-- ==== Sys2Proof/Certificates/Slice0/Obligations.lean ====
section
/-! DEFINITION. The statements for the provers: what the numbered rules of spec/ say the machine does. -/

open Sys2Proof Sys2Proof.Machine

/-! ### Encoding -/

/-- Words that spec/ writes out decode to the instructions they stand for, one or more of each family. The encodings
are the spec's, from general knowledge (G3, G4). -/
def Obligations.SpecWordsDecode : Prop :=
  decode (.arm 0xE0910002#32) = .addReg 14 true 1 0 0 .lsl 2 ∧
  decode (.arm 0xE1B00061#32) = .movReg 14 true 0 0 0 .ror 1 ∧
  decode (.arm 0xE10F0000#32) = .mrs 14 false 0 ∧
  decode (.arm 0xE328F4F0#32) = .msrImm 14 false true 0 false 4 0xF0 ∧
  decode (.arm 0xE0810392#32) = .umull 14 false 1 0 3 2 ∧
  decode (.arm 0xE1020091#32) = .swp 14 2 0 0 1 ∧
  decode (.arm 0xE5910004#32) = .ldrImmPre 14 true false 1 0 4 ∧
  decode (.arm 0xE05100F2#32) = .ldrshImmPost 14 false 1 0 0 2 ∧
  decode (.arm 0xE8FD8001#32) = .ldm 14 false true true true 13 0x8001 ∧
  decode (.arm 0xE12FFF1E#32) = .bx 14 14 ∧
  decode (.thumb 0x1E48#16) = .tSubImm3 1 1 0 ∧
  decode (.thumb 0x4487#16) = .tAddHi true false 0 7 ∧
  decode (.thumb 0xB501#16) = .tPush true 1 ∧
  decode (.thumb 0xD0FE#16) = .tBeq 0xFE

/-- Every well-formed instruction is read back from the word that encodes it, with every operand at every value. -/
def Obligations.EncodeThenDecode : Prop :=
  ∀ i : Instr, i.wellFormed = true → decode (encode i) = i

/-- Every word and every halfword decodes to a well-formed instruction, encoding that gives the word back, so that
no bit of it is lost, and the word matches that instruction's row of the opcode table: the bits under the row's mask
are the row's pattern. -/
def Obligations.DecodeThenEncode : Prop :=
  (∀ k : Code, encode (decode k) = k ∧ (decode k).wellFormed = true) ∧
  (∀ w : BitVec 32, w &&& (tableRow (decode (.arm w))).2 = (tableRow (decode (.arm w))).1) ∧
  ∀ h : BitVec 16,
    h.setWidth 32 &&& (tableRow (decode (.thumb h))).2 = (tableRow (decode (.thumb h))).1

/-- Which ARM words report Undefined: with kind trap the two coprocessor classes; with kind decode the leaves L1 to
L8 and the class with bits 27 to 25 = 011 and bit 4 set; and no others. That the coprocessor classes have kind trap
is the spec's decision D3, and the neighbourhood of MRS, MSR and BX its decision D11. -/
def Obligations.ArmUndefinedEncodings : Prop :=
  ∀ w : BitVec 32,
    ((∃ k, undefinedForm (decode (.arm w)) = some (.trap, k)) ↔
      w.extractLsb' 25 3 = 0b110#3 ∨ w.extractLsb' 24 4 = 0b1110#4) ∧
    ((∃ k, undefinedForm (decode (.arm w)) = some (.decode, k)) ↔
      w &&& 0x0FC000F0#32 = 0x00400090#32 ∨
      w &&& 0x0F8000F0#32 = 0x01800090#32 ∨
      (w &&& 0x0F8000F0#32 = 0x01000090#32 ∧ w.extractLsb' 20 2 ≠ 0#2) ∨
      (w &&& 0x0F200090#32 = 0x00200090#32 ∧ w.extractLsb' 5 2 ≠ 0#2) ∨
      w &&& 0x0E1000D0#32 = 0x000000D0#32 ∨
      (w &&& 0x0F900000#32 = 0x01000000#32 ∧ (w.getLsbD 7 = false ∨ w.getLsbD 4 = false) ∧
        w &&& 0x0FBF0FFF#32 ≠ 0x010F0000#32 ∧ w &&& 0x0FB0FFF0#32 ≠ 0x0120F000#32 ∧
        w &&& 0x0FFFFFF0#32 ≠ 0x012FFF10#32) ∨
      w &&& 0x0FB00000#32 = 0x03000000#32 ∨
      (w &&& 0x0FB00000#32 = 0x03200000#32 ∧ w.extractLsb' 12 4 ≠ 0b1111#4) ∨
      w &&& 0x0E000010#32 = 0x06000010#32)

/-- Which THUMB halfwords report Undefined: with kind trap condition code 14 of the conditional branch; with kind
decode the unallocated patterns; and no others. They are the spec's decisions D23 and D25. -/
def Obligations.ThumbUndefinedEncodings : Prop :=
  ∀ h : BitVec 16,
    ((∃ k, undefinedForm (decode (.thumb h)) = some (.trap, k)) ↔ h.extractLsb' 8 8 = 0b11011110#8) ∧
    ((∃ k, undefinedForm (decode (.thumb h)) = some (.decode, k)) ↔
      (0b10110001#8 ≤ h.extractLsb' 8 8 ∧ h.extractLsb' 8 8 ≤ 0b10110011#8) ∨
      (0b10110110#8 ≤ h.extractLsb' 8 8 ∧ h.extractLsb' 8 8 ≤ 0b10111011#8) ∨
      h.extractLsb' 8 8 = 0b10111110#8 ∨ h.extractLsb' 8 8 = 0b10111111#8 ∨ h.extractLsb' 11 5 = 0b11101#5)

/-! ### The step -/

/-- One step is one turn. On the core's turn, with the program counter aligned, it runs the instruction that the
bytes at the program counter decode to, after the program counter has advanced past it and the fetch has been
recorded; with a program counter that is not a multiple of the instruction size it has no meaning; on the host's
turn it makes the host's action and nothing else. The turns are the model's choice (notes/assumptions/8.md), and so
is the refusal (notes/assumptions/10.md). -/
def Obligations.StepRunsDecodedInstruction : Prop :=
  (∀ (s : State) (i : Instr) (rest : List Byte), s.pc.toNat % (if s.cpsr.t then 2 else 4) = 0 →
    decodeBytes s.cpsr.t [s.mem.byte s.pc, s.mem.byte (s.pc + 1#32), s.mem.byte (s.pc + 2#32), s.mem.byte (s.pc + 3#32)]
      = .ok (i, rest) →
    (s.schedule = [] →
      step s = exec i { s with pc := s.pc + (if s.cpsr.t then 2#32 else 4#32)
                               trace := .fetch s.pc (if s.cpsr.t then .half else .word) :: s.trace }) ∧
    ∀ turns, s.schedule = .core :: turns →
      step s = exec i { s with pc := s.pc + (if s.cpsr.t then 2#32 else 4#32)
                               trace := .fetch s.pc (if s.cpsr.t then .half else .word) :: s.trace
                               schedule := turns }) ∧
  (∀ s : State, coreTurn s = true → s.pc.toNat % (if s.cpsr.t then 2 else 4) ≠ 0 →
    step s = .refused .misalignedPc) ∧
  ∀ (s : State) (a : HostAction) (turns : List Turn), s.schedule = .host a :: turns →
    step s = .next (hostAct a { s with schedule := turns })

/-- In ARM state a step whose instruction's condition fails advances the program counter by 4, records its fetch,
and changes nothing else; condition code 15 fails whatever the flags are. -/
def Obligations.FailedConditionOnlyAdvances : Prop :=
  (∀ p : Psr, condPass 0b1111#4 p = false) ∧
  ∀ s : State, s.schedule = [] → s.cpsr.t = false → s.pcAligned = true →
    (condPass ((s.mem.read32 s.pc).extractLsb' 28 4) s.cpsr = false ∨
      (s.mem.read32 s.pc).extractLsb' 28 4 = 0b1111#4) →
    step s = .next { s with pc := s.pc + 4#32, trace := .fetch s.pc .word :: s.trace }

/-- An instruction that does not branch leaves the program counter at the address after it. That the advance wraps
is the spec's decision D21. -/
def Obligations.InstructionsThatDoNotBranchAdvance : Prop :=
  ∀ s t : State, coreTurn s = true → mayBranch (nextInstr s) = false → step s = .next t →
    t.pc = s.pc + (if s.cpsr.t then 2#32 else 4#32)

/-- Only the stores change memory: after any other instruction every byte reads as before. A software interrupt
whose service is external is the exception. -/
def Obligations.OnlyStoresChangeMemory : Prop :=
  ∀ (i : Instr) (s t : State), storesToMemory i = false → (isSwi i = true → s.params.swi ≠ .external) →
    exec i s = .next t → ∀ a : Word, t.mem.byte a = s.mem.byte a

/-- The condition flags are written only by the instructions that the table of writers names. A software interrupt
whose service is external is the exception. -/
def Obligations.OnlyFlagWritersChangeFlags : Prop :=
  ∀ (i : Instr) (s t : State), writesFlags i = false → (isSwi i = true → s.params.swi ≠ .external) →
    exec i s = .next t →
    t.cpsr.n = s.cpsr.n ∧ t.cpsr.z = s.cpsr.z ∧ t.cpsr.c = s.cpsr.c ∧ t.cpsr.v = s.cpsr.v

/-- The control bits of the CPSR change only by MSR to the control field, by the reload of a return from exception,
and T by a branch and exchange; the saved status registers change only by MSR. Software interrupts are the
exception. -/
def Obligations.OnlyStatusWritersChangeControlBits : Prop :=
  ∀ (i : Instr) (s t : State), isSwi i = false → exec i s = .next t →
    (writesControl i = false →
      t.cpsr.m = s.cpsr.m ∧ t.cpsr.i = s.cpsr.i ∧ t.cpsr.f = s.cpsr.f ∧ t.cpsr.t = s.cpsr.t) ∧
    (writesSaved i = false → t.spsr = s.spsr)

/-- No step ever ends in a fault, since the block has none (`Fault` has no constructor), and with the misaligned
policy `rotate` and a software-interrupt service every instruction completes in every state, so that every step from
an aligned program counter has a next state. The policy and the service are those of reset, both the model's choice
(notes/assumptions/1.md, 2.md). -/
def Obligations.EveryInstructionCompletes : Prop :=
  (∀ (s : State) (e : Fault), step s ≠ .fault e) ∧
  (∀ (i : Instr) (s : State), s.params.misaligned = .rotate → s.params.swi ≠ .absent → ∃ t, exec i s = .next t) ∧
  ∀ s : State, s.params.misaligned = .rotate → s.params.swi ≠ .absent → s.pcAligned = true → ∃ t, step s = .next t

/-- When an instruction is refused: exactly when its condition passes and, under the policy `refuse`, its data
address is not a multiple of its width, or it is a software interrupt and no service is supplied. That a software
interrupt without a service is refused is the spec's decision D4, and which block transfers are misaligned rests on
its decision D16 (notes/assumptions/11.md). -/
def Obligations.RefusalsAreExactly : Prop :=
  ∀ (i : Instr) (s : State),
    (exec i s = .refused .misalignedAccess ↔
      condPass (condOf i) s.cpsr = true ∧ s.params.misaligned = .refuse ∧
        ∃ a n, accessOf s i = some (a, n) ∧ ¬ Aligned a n) ∧
    (exec i s = .refused .noSwiService ↔
      condPass (condOf i) s.cpsr = true ∧ isSwi i = true ∧ s.params.swi = .absent) ∧
    exec i s ≠ .refused .misalignedPc ∧ ∀ name, exec i s ≠ .refused (.notModelled name)

/-! ### Reset -/

/-- After reset the machine is in ARM state and Supervisor mode with IRQ and FIQ masked, and the first step fetches
a word at the reset address, a multiple of 4. -/
def Obligations.ResetEntersSupervisorAtResetPc : Prop :=
  State.reset.cpsr.m = 0b10011#5 ∧ State.reset.cpsr.i = true ∧ State.reset.cpsr.f = true ∧
  State.reset.cpsr.t = false ∧ State.reset.pc = State.reset.params.resetPc ∧
  Aligned State.reset.params.resetPc .word ∧
  (∃ t, step State.reset = .next t ∧ Event.fetch State.reset.params.resetPc .word ∈ t.trace)

/-- A reset by the host sets M, I, F, T and the program counter, makes no bus access, raises no event, clears no
memory, and leaves nothing of the old registers, flags and saved status registers. What the unspecified fields
become is a free value, the model's choice (notes/assumptions/7.md). -/
def Obligations.HostResetSetsDefinedFieldsOnly : Prop :=
  ∀ s s' : State,
    (hostReset s).cpsr.m = 0b10011#5 ∧ (hostReset s).cpsr.i = true ∧ (hostReset s).cpsr.f = true ∧
    (hostReset s).cpsr.t = false ∧ (hostReset s).pc = s.params.resetPc ∧
    (hostReset s).mem = s.mem ∧ (hostReset s).trace = s.trace ∧ (hostReset s).params = s.params ∧
    (hostReset s).schedule = s.schedule ∧
    (s.resets = s'.resets →
      (hostReset s).regs = (hostReset s').regs ∧ (hostReset s).spsr = (hostReset s').spsr ∧
      (hostReset s).cpsr = (hostReset s').cpsr)

/-! ### Invariants -/

/-- Every step, of the core and of the host, keeps the canonical form of memory, and so does an instruction. The
form is the model's choice (notes/assumptions/4.md). -/
def Obligations.StepKeepsMemoryCanonical : Prop :=
  (∀ s t : State, Canonical s → step s = .next t → Canonical t) ∧
  ∀ (i : Instr) (s t : State), Canonical s → exec i s = .next t → Canonical t

/-- After reset memory lists nothing, and so is in canonical form, and the program counter is aligned. That memory
lists nothing then is the model's choice (notes/assumptions/4.md). -/
def Obligations.ResetMeetsTheInvariants : Prop :=
  State.reset.mem = [] ∧ Canonical State.reset ∧ PcSound State.reset

/-- Every step keeps the program counter a multiple of the instruction size, as long as no external service and no
write of the CPSR by the host interfere, and so no such step is refused for its program counter. That every branch
is masked is the spec's decision D9. -/
def Obligations.StepKeepsPcAligned : Prop :=
  ∀ s : State, PcSound s → step s ≠ .refused .misalignedPc ∧ ∀ t, step s = .next t → PcSound t

/-- From User mode the block's own instructions change neither the mode, nor the interrupt masks, nor a saved status
register. Software interrupts, which the host answers, are the exception. -/
def Obligations.UserModeIsConfined : Prop :=
  ∀ s t : State, coreTurn s = true → s.cpsr.m = 0b10000#5 →
    (isSwi (nextInstr s) = true → s.params.swi = .absent) → step s = .next t →
    t.cpsr.m = 0b10000#5 ∧ t.cpsr.i = s.cpsr.i ∧ t.cpsr.f = s.cpsr.f ∧ t.spsr = s.spsr

/-! ### Flags, conditions and shifts -/

/-- The flag-setting adder: the sum of the unsigned values, N its sign, Z when it is 0, C when the unsigned sum
leaves 32 bits, V when the signed sum leaves the signed range. That V is the overflow of the signed sum is the
spec's inference. -/
def Obligations.AdderFlags : Prop :=
  ∀ (a b : Word) (cin : Bool),
    (addFlags a b cin).r.toNat = (a.toNat + b.toNat + cin.toNat) % 2 ^ 32 ∧
    (addFlags a b cin).n = (addFlags a b cin).r.getLsbD 31 ∧
    ((addFlags a b cin).z = true ↔ (addFlags a b cin).r.toNat = 0) ∧
    ((addFlags a b cin).c = true ↔ 2 ^ 32 ≤ a.toNat + b.toNat + cin.toNat) ∧
    ((addFlags a b cin).v = true ↔
      a.toInt + b.toInt + cin.toNat < -2 ^ 31 ∨ 2 ^ 31 ≤ a.toInt + b.toInt + cin.toNat)

/-- The flag-setting subtracter: the difference less the borrow, C when there is no borrow, V when the signed
difference leaves the signed range. That V is the overflow of the signed difference is the spec's inference. -/
def Obligations.SubtracterFlags : Prop :=
  ∀ (a b : Word) (cin : Bool),
    ((subFlags a b cin).r.toNat : Int) = ((a.toNat : Int) - b.toNat - (1 - cin.toNat)) % 2 ^ 32 ∧
    (subFlags a b cin).n = (subFlags a b cin).r.getLsbD 31 ∧
    ((subFlags a b cin).z = true ↔ (subFlags a b cin).r.toNat = 0) ∧
    ((subFlags a b cin).c = true ↔ b.toNat + (1 - cin.toNat) ≤ a.toNat) ∧
    ((subFlags a b cin).v = true ↔
      a.toInt - b.toInt - (1 - cin.toNat) < -2 ^ 31 ∨ 2 ^ 31 ≤ a.toInt - b.toInt - (1 - cin.toNat))

/-- Subtraction is addition of the complement, in the result and in all four flags. It is an inference of the spec. -/
def Obligations.SubtractionAddsTheComplement : Prop :=
  ∀ (a b : Word) (cin : Bool), subFlags a b cin = addFlags a (~~~b) cin

/-- Condition codes: each odd code below 14 is the negation of the even code before it, 14 always passes and 15
never; and a code's outcome depends on the four flags alone. The numbers of the codes are the spec's, from general
knowledge (G5). -/
def Obligations.ConditionCodes : Prop :=
  (∀ (c : CondCode) (p : Psr), c.toNat % 2 = 0 → c.toNat < 14 → condPass (c + 1) p = !condPass c p) ∧
  (∀ p : Psr, condPass 14 p = true ∧ condPass 15 p = false) ∧
  (∀ p : Psr, condPass 0 p = p.z ∧ condPass 2 p = p.c ∧ condPass 4 p = p.n ∧ condPass 6 p = p.v ∧
    condPass 8 p = (p.c && !p.z) ∧ condPass 10 p = (p.n == p.v) ∧ condPass 12 p = (!p.z && p.n == p.v))

/-- The shift by an immediate amount, bit by bit, with the last bit shifted out as carry; amount 0 means 32 for LSR
and ASR, and a rotation by one through the carry for ROR. A rotated immediate is a byte rotated right by twice the
rotate field, with as carry the old carry when the field is 0, otherwise bit 31 of the value. The carries are the
spec's, from general knowledge (G6) and its decision D26. -/
def Obligations.ShiftByImmediate : Prop :=
  (∀ (v : Word) (n : BitVec 5) (cin : Bool) (j : Nat), j < 32 →
    ((shiftImm .lsl v n cin).1.getLsbD j = (decide (n.toNat ≤ j) && v.getLsbD (j - n.toNat))) ∧
    ((shiftImm .lsl v n cin).2 = if n = 0#5 then cin else v.getLsbD (32 - n.toNat)) ∧
    (n ≠ 0#5 →
      ((shiftImm .lsr v n cin).1.getLsbD j = v.getLsbD (j + n.toNat)) ∧
      ((shiftImm .asr v n cin).1.getLsbD j = v.getLsbD (min (j + n.toNat) 31)) ∧
      ((shiftImm .ror v n cin).1.getLsbD j = v.getLsbD ((j + n.toNat) % 32)) ∧
      (shiftImm .lsr v n cin).2 = v.getLsbD (n.toNat - 1) ∧
      (shiftImm .asr v n cin).2 = v.getLsbD (n.toNat - 1) ∧
      (shiftImm .ror v n cin).2 = v.getLsbD (n.toNat - 1)) ∧
    (shiftImm .lsr v 0 cin = (0#32, v.getLsbD 31)) ∧
    ((shiftImm .asr v 0 cin).1.getLsbD j = v.getLsbD 31) ∧ (shiftImm .asr v 0 cin).2 = v.getLsbD 31 ∧
    ((shiftImm .ror v 0 cin).1.getLsbD j = if j = 31 then cin else v.getLsbD (j + 1)) ∧
    (shiftImm .ror v 0 cin).2 = v.getLsbD 0) ∧
  ∀ (rot : BitVec 4) (b : BitVec 8) (cin : Bool),
    (∀ j < 32, (rotatedImm rot b cin).1.getLsbD j = b.getLsbD ((j + 2 * rot.toNat) % 32)) ∧
    (rotatedImm rot b cin).2 = if rot = 0#4 then cin else (rotatedImm rot b cin).1.getLsbD 31

/-- The shift by a register amount: 0 changes nothing, 1 to 31 shift as an immediate does, 32 and more are written
out for each type. Rotation by 64, 96 and so on is the spec's decision D14. -/
def Obligations.ShiftByRegister : Prop :=
  ∀ (ty : ShiftType) (v : Word) (n : Byte) (cin : Bool),
    (n = 0#8 → shiftReg ty v n cin = (v, cin)) ∧
    (0 < n.toNat → n.toNat < 32 → shiftReg ty v n cin = shiftImm ty v (n.setWidth 5) cin) ∧
    (n.toNat = 32 → shiftReg .lsl v n cin = (0#32, v.getLsbD 0) ∧ shiftReg .lsr v n cin = (0#32, v.getLsbD 31)) ∧
    (32 < n.toNat → shiftReg .lsl v n cin = (0#32, false) ∧ shiftReg .lsr v n cin = (0#32, false)) ∧
    (32 ≤ n.toNat →
      shiftReg .asr v n cin = (if v.getLsbD 31 then 0xFFFFFFFF#32 else 0#32, v.getLsbD 31) ∧
      shiftReg .ror v n cin =
        if n.toNat % 32 = 0 then (v, v.getLsbD 31) else shiftImm .ror v (n.setWidth 5) cin)

/-! ### Status registers and banks -/

/-- The 32-bit image of a status register: where each field stands, that bits 27 to 8 read as 0, and that a written
word reads back with those bits cleared. The places of the bits are the spec's, from general knowledge (G2) and its
decision D6. -/
def Obligations.StatusImage : Prop :=
  (∀ p : Psr,
    p.toWord.getLsbD 31 = p.n ∧ p.toWord.getLsbD 30 = p.z ∧ p.toWord.getLsbD 29 = p.c ∧ p.toWord.getLsbD 28 = p.v ∧
    p.toWord.extractLsb' 8 20 = 0#20 ∧ p.toWord.getLsbD 7 = p.i ∧ p.toWord.getLsbD 6 = p.f ∧
    p.toWord.getLsbD 5 = p.t ∧ p.toWord.extractLsb' 0 5 = p.m ∧ Psr.ofWord p.toWord = p) ∧
  ∀ w : Word, (Psr.ofWord w).toWord = w &&& 0xF00000FF#32

/-- Banking: r0 to r7 have one storage, r8 to r12 one in FIQ mode and one in every other, r13 and r14 one in each of
the six banks, bank 0 being that of User, of System and of every invalid mode value; and a value written in one mode
is read in another exactly where the two share storage, a change of mode moving no register. The numbers of the
modes are the spec's, from general knowledge (G2). -/
def Obligations.BanksAreIndependent : Prop :=
  (bank13 0b10001#5 = .fiq ∧ bank13 0b10010#5 = .irq ∧ bank13 0b10011#5 = .svc ∧ bank13 0b10111#5 = .abt ∧
    bank13 0b11011#5 = .und ∧
    ∀ m : BitVec 5, m ∉ [0b10001#5, 0b10010#5, 0b10011#5, 0b10111#5, 0b11011#5] → bank13 m = .usr) ∧
  (∀ (m m' : BitVec 5) (i j : Reg), i ≠ 15#4 → j ≠ 15#4 →
    (physReg m i = physReg m' j ↔
      i = j ∧ (i.toNat < 8 ∨
        8 ≤ i.toNat ∧ i.toNat < 13 ∧ (m = 0b10001#5 ↔ m' = 0b10001#5) ∨
        13 ≤ i.toNat ∧ bank13 m = bank13 m'))) ∧
  ∀ (s : State) (p : Psr) (i j : Reg) (v : Word), i ≠ 15#4 → j ≠ 15#4 →
    ((s.setReg i v).withCpsr p).reg j =
      if physReg s.cpsr.m i = physReg p.m j then v else (s.withCpsr p).reg j

/-! ### Memory -/

/-- A store of each width sets the bytes it names and no other, and a word stored is read back whole, by halfwords
and by bytes, the least significant byte at the lowest address. The byte order of data is the spec's decision D10. -/
def Obligations.MemoryIsLittleEndian : Prop :=
  ∀ (m : Memory) (a v : Word) (n : Width),
    Stored a n v m (m.store a n v) ∧
    (m.store a .word v).read32 a = v ∧
    (m.store a .word v).read16 a = v.extractLsb' 0 16 ∧
    (m.store a .word v).read16 (a + 2#32) = v.extractLsb' 16 16 ∧
    (m.store a .word v).byte (a + 1#32) = v.extractLsb' 8 8 ∧
    (m.store a .half v).read16 a = v.extractLsb' 0 16 ∧
    (m.store a .byte v).byte a = v.extractLsb' 0 8

/-- Two memories in canonical form that agree on every byte are the same list. The form is the model's choice
(notes/assumptions/4.md). -/
def Obligations.CanonicalMemoriesAreEqual : Prop :=
  ∀ m m' : Memory, m.wf = true → m'.wf = true → (∀ a : Word, m.byte a = m'.byte a) → m = m'

/-- What a load gives: at an aligned address the little-endian value of its bytes, extended; at a misaligned one,
under the policy `rotate`, the word or halfword with the low address bits cleared, rotated, or for a signed halfword
the byte at the address. The byte order is the spec's decision D10, and the values at misaligned addresses are its
general knowledge (G7). -/
def Obligations.LoadedValues : Prop :=
  ∀ (m : Memory) (a : Word),
    loadValue m .word a =
      (let a4 := a &&& 0xFFFFFFFC#32
       let w := m.byte (a4 + 3#32) ++ m.byte (a4 + 2#32) ++ m.byte (a4 + 1#32) ++ m.byte a4
       let r := 8 * (a.toNat % 4)
       if r = 0 then w else w >>> r ||| w <<< (32 - r)) ∧
    loadValue m .byte a = (m.byte a).setWidth 32 ∧
    loadValue m .signedByte a = (m.byte a).signExtend 32 ∧
    (Aligned a .half → loadValue m .half a = (m.byte (a + 1#32) ++ m.byte a).setWidth 32 ∧
      loadValue m .signedHalf a = (m.byte (a + 1#32) ++ m.byte a).signExtend 32) ∧
    (¬ Aligned a .half →
      (loadValue m .half a = (m.byte a).setWidth 32 ||| (m.byte (a - 1#32)).setWidth 32 <<< 24) ∧
      loadValue m .signedHalf a = (m.byte a).signExtend 32)

/-! ### Exceptions and the host -/

/-- Taking an exception: the new mode, ARM state, IRQ masked, FIQ masked by reset and FIQ only; but for reset the
new mode's saved status register takes the old status and its r14 the link value; the program counter at the vector;
and nothing else changes. The modes, vectors and link values of the seven exceptions are written out, `p` being the
program counter at the boundary and `a` the address of an aborted instruction. The whole sequence is the spec's,
from general knowledge (G11). -/
def Obligations.ExceptionEntry : Prop :=
  (∀ (e : ArchException) (s : State),
    let t := takeException e s
    t.cpsr = { s.cpsr with m := e.mode, t := false, i := true, f := s.cpsr.f || decide (e = .reset ∨ e = .fiq) } ∧
    t.pc = e.vector ∧
    (e = .reset → t.regs = s.regs ∧ t.spsr = s.spsr) ∧
    (e ≠ .reset →
      (∀ b, t.spsr.get b = if spsrBank e.mode = some b then s.cpsr else s.spsr.get b) ∧
      ∀ p, t.regs.get p = if p = .s14 (bank13 e.mode) then e.link s.pc else s.regs.get p) ∧
    t = { s with regs := t.regs, pc := t.pc, cpsr := t.cpsr, spsr := t.spsr }) ∧
  ∀ p a : Word,
    (ArchException.reset.mode, ArchException.reset.vector) = (0x13#5, 0x00000000#32) ∧
    (ArchException.undefined.mode, ArchException.undefined.vector, ArchException.undefined.link p)
      = (0x1B#5, 0x00000004#32, p) ∧
    (ArchException.softwareInterrupt.mode, ArchException.softwareInterrupt.vector,
      ArchException.softwareInterrupt.link p) = (0x13#5, 0x00000008#32, p) ∧
    ((ArchException.prefetchAbort a).mode, (ArchException.prefetchAbort a).vector,
      (ArchException.prefetchAbort a).link p) = (0x17#5, 0x0000000C#32, a + 4#32) ∧
    ((ArchException.dataAbort a).mode, (ArchException.dataAbort a).vector, (ArchException.dataAbort a).link p)
      = (0x17#5, 0x00000010#32, a + 8#32) ∧
    (ArchException.irq.mode, ArchException.irq.vector, ArchException.irq.link p)
      = (0x12#5, 0x00000018#32, p + 4#32) ∧
    (ArchException.fiq.mode, ArchException.fiq.vector, ArchException.fiq.link p)
      = (0x11#5, 0x0000001C#32, p + 4#32)

/-- A return undoes an entry: after an exception other than reset has been taken, and the handler's first
instruction is the return idiom of that exception (`MOVS pc, lr`, `SUBS pc, lr, #4` or `SUBS pc, lr, #8`), the CPSR
is whole again and the program counter is at the instruction to resume, masked for the restored instruction set.
Entry and idioms are the spec's, from general knowledge (G11). -/
def Obligations.ReturnUndoesEntry : Prop :=
  ∀ (e : ArchException) (s : State) (i : Instr) (resume : Word),
    (match e with
      | .reset => False
      | .undefined | .softwareInterrupt => i = .movReg 14 true 0 15 0 .lsl 14 ∧ resume = s.pc
      | .irq | .fiq => i = .subImm 14 true 14 15 0 4 ∧ resume = s.pc
      | .prefetchAbort a => i = .subImm 14 true 14 15 0 4 ∧ resume = a
      | .dataAbort a => i = .subImm 14 true 14 15 0 8 ∧ resume = a) →
    ∃ t, exec i { takeException e s with pc := e.vector + 4#32 } = .next t ∧
      t.cpsr = s.cpsr ∧ t.pc = branchMask s.cpsr.t resume ∧
      ∀ p, p ≠ .s14 (bank13 e.mode) → t.regs.get p = s.regs.get p

/-- A software interrupt records its call, with the comment of 24 bits, of THUMB 8 bits extended with zeros, and
then the service acts: with none the instruction is refused; as the architecture's entry it takes the exception; an
external one does what it does by host actions and bus writes, in order, whatever they are. The refusal and the
widening of the THUMB comment are the spec's decision D4, and the shape of an external service is the model's choice
(notes/assumptions/6.md). -/
def Obligations.SoftwareInterrupts : Prop :=
  ∀ (i : Instr) (comment : BitVec 24) (s : State),
    ((∃ c, i = .swi c comment ∧ condPass c s.cpsr = true) ∨ ∃ b : BitVec 8, i = .tSwi b ∧ comment.toNat = b.toNat) →
    let called : State := { s with trace := .swi comment :: s.trace }
    (s.params.swi = .absent → exec i s = .refused .noSwiService) ∧
    (s.params.swi = .vectored → exec i s = .next (takeException .softwareInterrupt called)) ∧
    (s.params.swi = .external →
      exec i s = .next ((Config.swiService comment s).foldl
        (fun t o =>
          match o with
          | .host a => hostAct a t
          | .busWrite a n v => t.store a n v) called))

/-- An undefined instruction whose condition passes makes exactly one report, with its kind, its address and its
bits, and changes no register, flag or memory byte: execution goes on at the next instruction. That it does not
vector, and what the report carries, are the spec's decisions D2 and D3 (notes/assumptions/13.md). -/
def Obligations.UndefinedReportsAndContinues : Prop :=
  ∀ (i : Instr) (kind : UndefKind) (k : Code) (s : State), undefinedForm i = some (kind, k) →
    match k with
    | .arm w => ∀ a : Word, s.cpsr.t = false → s.pc = a + 4#32 → condPass (w.extractLsb' 28 4) s.cpsr = true →
        exec i s = .next { s with trace := .undefined kind a w :: s.trace }
    | .thumb h => ∀ a : Word, s.cpsr.t = true → s.pc = a + 2#32 →
        exec i s = .next { s with trace := .undefined kind a (h.setWidth 32) :: s.trace }

/-! ### ARM data processing and PSR transfer

In each statement of a result the whole next state is given: what the equation for `t` does not name is unchanged. -/

/-- AND, EOR, ORR, MOV, BIC, MVN, in every operand form, with every destination: the result, the flags with S = 1 (V
unchanged), and for destination r15 the reload of the CPSR and the branch. The order of flags, reload and branch,
and that the flags stay in a mode without a saved status register, are the spec's decision D13. -/
def Obligations.LogicalDataProcessing : Prop :=
  ∀ (i : Instr) (f : DpForm) (r : Word) (s : State), dpForm i = some f →
    logicalValue (s.reg f.rn) (f.operand.value s).1 f.op = some r → condPass f.c s.cpsr = true →
    let cpsr := statusAfter f.sf f.rd
      { s.cpsr with n := r.getLsbD 31, z := decide (r = 0#32), c := (f.operand.value s).2 } s
    ∃ t, exec i s = .next t ∧ RegistersAfter [(s.phys f.rd, r)] cpsr.t s t ∧
      t = { s with regs := t.regs, pc := t.pc, cpsr := cpsr }

/-- SUB, RSB, ADD, ADC, SBC, RSC, in every operand form, with every destination: the result, all four flags with S =
1, and for destination r15 the reload of the CPSR and the branch. The carry of the shifter is discarded. The order
of flags, reload and branch is the spec's decision D13. -/
def Obligations.ArithmeticDataProcessing : Prop :=
  ∀ (i : Instr) (f : DpForm) (x : Flagged) (s : State), dpForm i = some f →
    arithValue (s.reg f.rn) (f.operand.value s).1 s.cpsr.c f.op = some x → condPass f.c s.cpsr = true →
    let cpsr := statusAfter f.sf f.rd { s.cpsr with n := x.n, z := x.z, c := x.c, v := x.v } s
    ∃ t, exec i s = .next t ∧ RegistersAfter [(s.phys f.rd, x.r)] cpsr.t s t ∧
      t = { s with regs := t.regs, pc := t.pc, cpsr := cpsr }

/-- TST, TEQ, CMP, CMN, in every operand form and whatever their ignored field: the flags, and nothing else. That
their field Rd is ignored is the spec's decision D13. -/
def Obligations.TestsWriteOnlyFlags : Prop :=
  ∀ (i : Instr) (f : DpForm) (p : Psr) (s : State), dpForm i = some f →
    testStatus (s.reg f.rn) (f.operand.value s).1 (f.operand.value s).2 s.cpsr f.op = some p →
    condPass f.c s.cpsr = true → exec i s = .next { s with cpsr := p }

/-- MRS writes the image of the CPSR, or of the mode's saved status register, or of the CPSR again in a mode that
has none, to any destination. -/
def Obligations.MrsReadsStatus : Prop :=
  ∀ (c : CondCode) (p : Bool) (rd : Reg) (s : State), condPass c s.cpsr = true →
    let psr := if p then (match spsrBank s.cpsr.m with
      | some b => s.spsr.get b
      | none => s.cpsr) else s.cpsr
    ∃ t, exec (.mrs c p rd) s = .next t ∧ RegistersAfter [(s.phys rd, psr.toWord)] s.cpsr.t s t ∧
      t = { s with regs := t.regs, pc := t.pc }

/-- MSR, of a register or of a rotated immediate: the selected fields of the CPSR, the control field in a privileged
mode only; or the selected fields of the mode's saved status register; or nothing in a mode that has none. The field
mask is the spec's decision D12. -/
def Obligations.MsrWritesSelectedFields : Prop :=
  ∀ (i : Instr) (c : CondCode) (p ff fc : Bool) (v : Word) (s : State),
    ((∃ ign rm, i = .msrReg c p ff ign fc rm ∧ v = s.reg rm) ∨
      ∃ ign rot b, i = .msrImm c p ff ign fc rot b ∧ v = (rotatedImm rot b s.cpsr.c).1) →
    condPass c s.cpsr = true →
    (p = false →
      exec i s = .next { s with cpsr := msrFields ff (fc && decide (s.cpsr.m ≠ 0b10000#5)) v s.cpsr }) ∧
    (p = true → ∃ t, exec i s = .next t ∧ t = { s with spsr := t.spsr } ∧
      ∀ b, t.spsr.get b =
        if spsrBank s.cpsr.m = some b then msrFields ff fc v (s.spsr.get b) else s.spsr.get b)

/-- MSR and then MRS: the full write reads back the word without bits 27 to 8, from the CPSR in a privileged mode or
from a saved status register; the flags-only write reads back the flags, and the low byte is unchanged. The round
trip is an inference of the spec. -/
def Obligations.MsrThenMrs : Prop :=
  ∀ (s t u : State) (p : Bool) (ign : BitVec 2) (rm rd : Reg), rd ≠ 15#4 →
    (exec (.msrReg 14 p true ign true rm) s = .next t → exec (.mrs 14 p rd) t = .next u →
      (if p then (spsrBank s.cpsr.m).isSome else decide (s.cpsr.m ≠ 0b10000#5)) = true →
      u.reg rd = s.reg rm &&& 0xF00000FF#32) ∧
    (exec (.msrReg 14 false true ign false rm) s = .next t → exec (.mrs 14 false rd) t = .next u →
      u.reg rd &&& 0xF0000000#32 = s.reg rm &&& 0xF0000000#32 ∧
      u.reg rd &&& 0xFF#32 = s.cpsr.toWord &&& 0xFF#32)

/-! ### ARM multiply and swap -/

/-- MUL and MLA: the low 32 bits of the product, plus the addend; with S = 1 N and Z from it, C cleared, V
unchanged. That V is unchanged is the spec's decision D18. -/
def Obligations.Multiply : Prop :=
  ∀ (i : Instr) (c : CondCode) (sf : Bool) (rd rs rm : Reg) (add : Nat) (s : State),
    ((∃ ign, i = .mul c sf rd ign rs rm ∧ add = 0) ∨ ∃ rn, i = .mla c sf rd rn rs rm ∧ add = (s.reg rn).toNat) →
    condPass c s.cpsr = true →
    let r := BitVec.ofNat 32 ((s.reg rm).toNat * (s.reg rs).toNat + add)
    ∃ t, exec i s = .next t ∧ RegistersAfter [(s.phys rd, r)] s.cpsr.t s t ∧
      t = { s with regs := t.regs
                   pc := t.pc
                   cpsr := if sf then { s.cpsr with n := r.getLsbD 31, z := decide (r = 0#32), c := false }
                     else s.cpsr }

/-- UMULL, UMLAL, SMULL, SMLAL: the 64-bit product, plus RdHi and RdLo for the accumulating forms; RdLo is written,
then RdHi, so that RdHi stays when the two are one register; with S = 1 the flags from all 64 bits. That V is
unchanged is the spec's decision D18, and the accumulating forms are its general knowledge (G3). -/
def Obligations.MultiplyLong : Prop :=
  ∀ (i : Instr) (c : CondCode) (sf : Bool) (rdHi rdLo rs rm : Reg) (r : BitVec 64) (s : State),
    (let acc := (s.reg rdHi).toNat * 2 ^ 32 + (s.reg rdLo).toNat
     i = .umull c sf rdHi rdLo rs rm ∧ r.toNat = (s.reg rm).toNat * (s.reg rs).toNat ∨
     i = .umlal c sf rdHi rdLo rs rm ∧ r.toNat = ((s.reg rm).toNat * (s.reg rs).toNat + acc) % 2 ^ 64 ∨
     i = .smull c sf rdHi rdLo rs rm ∧ r.toInt = (s.reg rm).toInt * (s.reg rs).toInt ∨
     i = .smlal c sf rdHi rdLo rs rm ∧ r = BitVec.ofInt 64 ((s.reg rm).toInt * (s.reg rs).toInt + acc)) →
    condPass c s.cpsr = true →
    ∃ t, exec i s = .next t ∧
      RegistersAfter [(s.phys rdLo, r.extractLsb' 0 32), (s.phys rdHi, r.extractLsb' 32 32)] s.cpsr.t s t ∧
      t = { s with regs := t.regs
                   pc := t.pc
                   cpsr := if sf then { s.cpsr with n := r.getLsbD 63, z := decide (r = 0#64), c := false }
                     else s.cpsr }

/-- SWP and SWPB: the old value is read, then the new one is written at the same address, then the old value goes to
the register; a misaligned word is read rotated and written with the low address bits ignored, under `rotate`. The
misaligned word is the spec's, from general knowledge (G7). -/
def Obligations.Swap : Prop :=
  ∀ (i : Instr) (c : CondCode) (k : LoadKind) (rn rd rm : Reg) (ign : BitVec 4) (s : State),
    (i = .swp c rn rd ign rm ∧ k = .word ∨ i = .swpb c rn rd ign rm ∧ k = .byte) →
    condPass c s.cpsr = true → (Aligned (s.reg rn) k.width ∨ s.params.misaligned = .rotate) →
    ∃ t, exec i s = .next t ∧ RegistersAfter [(s.phys rd, loadValue s.mem k (s.reg rn))] s.cpsr.t s t ∧
      Stored (busAddr (s.reg rn) k.width) k.width (s.reg rm) s.mem t.mem ∧
      t = { s with regs := t.regs
                   pc := t.pc
                   mem := t.mem
                   trace := .write (busAddr (s.reg rn) k.width) k.width (truncateTo k.width (s.reg rm)) ::
                     .read (busAddr (s.reg rn) k.width) k.width :: s.trace }

/-! ### ARM single transfers -/

/-- LDR, LDRB and their forced-user forms, in every addressing form: one read, then the write-back of the base, then
the loaded value, which stays when the two are one register; a forced-user form loads the User-bank copy. The order
of effects and the forced-user forms are the spec's decisions D17 and D15, the misaligned values its general
knowledge (G7). -/
def Obligations.SingleLoads : Prop :=
  ∀ (i : Instr) (f : TransferForm) (k : LoadKind) (s : State), singleForm i = some f → f.access = .load k →
    condPass f.c s.cpsr = true → (Aligned (f.addr s) k.width ∨ s.params.misaligned = .rotate) →
    ∃ t, exec i s = .next t ∧
      RegistersAfter (f.baseWrite s ++ [(f.rdPhys s, loadValue s.mem k (f.addr s))]) s.cpsr.t s t ∧
      t = { s with regs := t.regs, pc := t.pc, trace := loadEvent k (f.addr s) :: s.trace }

/-- STR, STRB and their forced-user forms, in every addressing form: the register's value from before the write-back
is stored at the address, in the bytes of its width and no others, then the base is written back; a forced-user form
stores the User-bank copy; r15 stores the value it reads as. The order of effects, the forced-user forms and a
stored r15 are the spec's decisions D17, D15 and D8, the misaligned stores its general knowledge (G7). -/
def Obligations.SingleStores : Prop :=
  ∀ (i : Instr) (f : TransferForm) (n : Width) (s : State), singleForm i = some f → f.access = .store n →
    condPass f.c s.cpsr = true → (Aligned (f.addr s) n ∨ s.params.misaligned = .rotate) →
    let v := match f.rdPhys s with
      | some p => s.regs.get p
      | none => s.r15
    ∃ t, exec i s = .next t ∧ RegistersAfter (f.baseWrite s) s.cpsr.t s t ∧
      Stored (busAddr (f.addr s) n) n v s.mem t.mem ∧
      t = { s with regs := t.regs
                   pc := t.pc
                   mem := t.mem
                   trace := .write (busAddr (f.addr s) n) n (truncateTo n v) :: s.trace }

/-- LDRH, LDRSB, LDRSH and STRH, in every addressing form. A load makes one read, then the write-back of the base,
then writes the loaded value. A store stores the low halfword, in its two bytes and no others, then writes the base
back. The order of effects is the spec's decision D17, the misaligned accesses its general knowledge (G7). -/
def Obligations.HalfwordAndSignedTransfers : Prop :=
  ∀ (i : Instr) (f : TransferForm) (s : State), halfForm i = some f → condPass f.c s.cpsr = true →
    (Aligned (f.addr s) f.access.width ∨ s.params.misaligned = .rotate) →
    (∀ k, f.access = .load k →
      ∃ t, exec i s = .next t ∧
        RegistersAfter (f.baseWrite s ++ [(s.phys f.rd, loadValue s.mem k (f.addr s))]) s.cpsr.t s t ∧
        t = { s with regs := t.regs, pc := t.pc, trace := loadEvent k (f.addr s) :: s.trace }) ∧
    (∀ n, f.access = .store n →
      ∃ t, exec i s = .next t ∧ RegistersAfter (f.baseWrite s) s.cpsr.t s t ∧
        Stored (f.addr s &&& 0xFFFFFFFE#32) .half (s.reg f.rd) s.mem t.mem ∧
        t = { s with regs := t.regs
                     pc := t.pc
                     mem := t.mem
                     trace := .write (f.addr s &&& 0xFFFFFFFE#32) .half (s.reg f.rd &&& 0xFFFF#32) :: s.trace })

/-! ### ARM block transfers -/

/-- The addresses of a block transfer: the registers of a list in ascending order, one for each bit that is set;
where the lowest-numbered one goes, and the address after all of them, in the four modes. The order of registers is
the spec's decision D16. -/
def Obligations.BlockTransferAddresses : Prop :=
  ∀ (list : BitVec 16) (base : Word),
    let n := (regsOf list).length
    (regsOf list).Pairwise (fun a b => a.toNat < b.toNat) ∧ (∀ r : Reg, r ∈ regsOf list ↔ list.getLsbD r.toNat = true) ∧
    blockStart false true base n = base ∧ blockFinal true base n = base + BitVec.ofNat 32 (4 * n) ∧
    blockStart true true base n = base + 4#32 ∧ blockFinal false base n = base - BitVec.ofNat 32 (4 * n) ∧
    blockStart false false base n = base - BitVec.ofNat 32 (4 * n) + 4#32 ∧
    blockStart true false base n = base - BitVec.ofNat 32 (4 * n)

/-- LDM, in every form: the base is written back, then the registers of the list are loaded in ascending order from
ascending addresses, in the User bank with S = 1 and no r15 in the list; with S = 1 and r15 in the list the CPSR is
reloaded before the branch. The last write to a register stays, so a loaded base stays. The order is the spec's
decision D16, the misaligned accesses its general knowledge (G7). -/
def Obligations.LoadMultiple : Prop :=
  ∀ (c : CondCode) (p u ub w : Bool) (rn : Reg) (list : BitVec 16) (s : State),
    let n := (regsOf list).length
    let start := blockStart p u (s.reg rn) n
    let pcInList := list.getLsbD 15
    let m := if ub && !pcInList then modeUsr else s.cpsr.m
    let cpsr := if ub && pcInList then (match spsrBank s.cpsr.m with
      | some b => s.spsr.get b
      | none => s.cpsr) else s.cpsr
    condPass c s.cpsr = true → (Aligned start .word ∨ s.params.misaligned = .rotate) →
    ∃ t, exec (.ldm c p u ub w rn list) s = .next t ∧
      RegistersAfter ((if w then [(s.phys rn, blockFinal u (s.reg rn) n)] else []) ++
        blockLoads m (regsOf list) start s.mem) cpsr.t s t ∧
      t = { s with regs := t.regs, pc := t.pc, cpsr := cpsr, trace := blockReads n start ++ s.trace }

/-- STM, in every form: the registers of the list are stored in ascending order at ascending addresses, from the
User bank with S = 1, in their words and no other byte; the base is written back after the first store, so the old
base is stored when it is the lowest register of the list and the new one otherwise. The order and a stored r15 are
the spec's decisions D16 and D8, the misaligned accesses its general knowledge (G7). -/
def Obligations.StoreMultiple : Prop :=
  ∀ (c : CondCode) (p u ub w : Bool) (rn : Reg) (list : BitVec 16) (s : State),
    let n := (regsOf list).length
    let start := blockStart p u (s.reg rn) n
    let wb : List RegWrite := if w then [(s.phys rn, blockFinal u (s.reg rn) n)] else []
    let words := blockStores (if ub then modeUsr else s.cpsr.m) (regsOf list) start wb s
    condPass c s.cpsr = true → (Aligned start .word ∨ s.params.misaligned = .rotate) →
    ∃ t, exec (.stm c p u ub w rn list) s = .next t ∧ RegistersAfter wb s.cpsr.t s t ∧
      StoredWords words s.mem t.mem ∧
      t = { s with regs := t.regs, pc := t.pc, mem := t.mem, trace := blockWrites words ++ s.trace }

/-! ### Branches -/

/-- B, BL and BX in ARM state, `a` being the address of the instruction: the target of B and BL is `a + 8` plus four
times the signed offset; BL leaves `a + 4` in r14 of the current mode; BX takes T from bit 0 of its register and
then branches under the new T. -/
def Obligations.ArmBranches : Prop :=
  ∀ (c : CondCode) (off : BitVec 24) (rm : Reg) (s : State) (a : Word),
    s.cpsr.t = false → s.pc = a + 4#32 → condPass c s.cpsr = true →
    (exec (.b c off) s = .next { s with pc := branchMask false (a + 8#32 + off.signExtend 32 <<< 2) }) ∧
    (∃ t, exec (.bl c off) s = .next t ∧
      RegistersAfter [(some (.s14 (bank13 s.cpsr.m)), a + 4#32), (none, a + 8#32 + off.signExtend 32 <<< 2)] false s t ∧
      t = { s with regs := t.regs, pc := t.pc }) ∧
    (let v := if rm = 15#4 then a + 8#32 else s.reg rm
     exec (.bx c rm) s =
       .next { s with pc := branchMask (v.getLsbD 0) v, cpsr := { s.cpsr with t := v.getLsbD 0 } })

/-! ### THUMB -/

/-- The THUMB shifts by an immediate and by a register, and MUL: the result in Rd, N and Z from it, C from the
shifter, or cleared by MUL, V unchanged. That MUL leaves V unchanged is the spec's decision D18. -/
def Obligations.ThumbShiftsAndMultiply : Prop :=
  ∀ (i : Instr) (rd : LowReg) (r : Word) (carry : Bool) (s : State),
    thumbShiftForm s i = some (rd, r, carry) →
    ∃ t, exec i s = .next t ∧ (∀ p, t.regs.get p = if p = .g rd.toFin then r else s.regs.get p) ∧
      t = { s with regs := t.regs
                   cpsr := { s.cpsr with n := r.getLsbD 31, z := decide (r = 0#32), c := carry } }

/-- The THUMB logical operations: the result in Rd, N and Z from it, C and V unchanged. -/
def Obligations.ThumbLogical : Prop :=
  ∀ (i : Instr) (rd : LowReg) (r : Word) (s : State), thumbLogicalForm s i = some (rd, r) →
    ∃ t, exec i s = .next t ∧ (∀ p, t.regs.get p = if p = .g rd.toFin then r else s.regs.get p) ∧
      t = { s with regs := t.regs, cpsr := { s.cpsr with n := r.getLsbD 31, z := decide (r = 0#32) } }

/-- The THUMB additions, subtractions and negation: the result in Rd and all four flags. -/
def Obligations.ThumbArithmetic : Prop :=
  ∀ (i : Instr) (rd : LowReg) (x : Flagged) (s : State), thumbArithForm s i = some (rd, x) →
    ∃ t, exec i s = .next t ∧ (∀ p, t.regs.get p = if p = .g rd.toFin then x.r else s.regs.get p) ∧
      t = { s with regs := t.regs, cpsr := { s.cpsr with n := x.n, z := x.z, c := x.c, v := x.v } }

/-- The THUMB comparisons write the flags and nothing else: CMP and CMN all four, TST N and Z. That the
high-register CMP executes with H1 and H2 both 0 is the spec's decision D19. -/
def Obligations.ThumbComparisons : Prop :=
  (∀ (i : Instr) (x : Flagged) (s : State), thumbCompareForm s i = some x →
    exec i s = .next { s with cpsr := { s.cpsr with n := x.n, z := x.z, c := x.c, v := x.v } }) ∧
  ∀ (rs rd : LowReg) (s : State),
    let r := s.reg (lowReg rd) &&& s.reg (lowReg rs)
    exec (.tTst rs rd) s = .next { s with cpsr := { s.cpsr with n := r.getLsbD 31, z := decide (r = 0#32) } }

/-- The THUMB operations that write one register and no flag, r15 by a branch, and BX, which takes T from bit 0 of
its register, its ignored bits whatever they are. The ignored bits of BX are the spec's decision D19, the masked
base of the PC-relative form its decision D26. -/
def Obligations.ThumbMovesAndExchange : Prop :=
  (∀ (i : Instr) (d : Reg) (v : Word) (s : State), thumbMoveForm s i = some (d, v) →
    ∃ t, exec i s = .next t ∧ RegistersAfter [(s.phys d, v)] s.cpsr.t s t ∧
      t = { s with regs := t.regs, pc := t.pc }) ∧
  ∀ (ignH h2 : Bool) (rs : LowReg) (ign : BitVec 3) (s : State),
    let v := s.reg (highReg h2 rs)
    exec (.tBx ignH h2 rs ign) s =
      .next { s with pc := branchMask (v.getLsbD 0) v, cpsr := { s.cpsr with t := v.getLsbD 0 } }

/-- The THUMB loads of one register: one read, and the loaded value in Rd. The masked base of the PC-relative form
is the spec's decision D26, the misaligned values its general knowledge (G7). -/
def Obligations.ThumbLoads : Prop :=
  ∀ (i : Instr) (k : LoadKind) (rd : LowReg) (a : Word) (s : State),
    thumbTransferForm s i = some (.load k, rd, a) → (Aligned a k.width ∨ s.params.misaligned = .rotate) →
    ∃ t, exec i s = .next t ∧
      (∀ p, t.regs.get p = if p = .g rd.toFin then loadValue s.mem k a else s.regs.get p) ∧
      t = { s with regs := t.regs, trace := loadEvent k a :: s.trace }

/-- The THUMB stores of one register: the low bytes of Rd at the address, and no other byte. The misaligned stores
are the spec's, from general knowledge (G7). -/
def Obligations.ThumbStores : Prop :=
  ∀ (i : Instr) (n : Width) (rd : LowReg) (a : Word) (s : State),
    thumbTransferForm s i = some (.store n, rd, a) → (Aligned a n ∨ s.params.misaligned = .rotate) →
    ∃ t, exec i s = .next t ∧ Stored (busAddr a n) n (s.regs.get (.g rd.toFin)) s.mem t.mem ∧
      t = { s with mem := t.mem
                   trace := .write (busAddr a n) n (truncateTo n (s.regs.get (.g rd.toFin))) :: s.trace }

/-- PUSH and POP: the stack is full and descending, the lowest register at the lowest address and the link register
or the program counter at the highest; r13 of the current mode moves by four bytes a word; a popped program counter
is a branch that leaves T as it is. The empty list is the spec's decision D16, the misaligned accesses its general
knowledge (G7). -/
def Obligations.PushAndPop : Prop :=
  ∀ (r : Bool) (list : BitVec 8) (s : State),
    let regs := regsOf (list.setWidth 16)
    let n := regs.length + r.toNat
    let start := s.reg 13#4 - BitVec.ofNat 32 (4 * n)
    let words := blockStores s.cpsr.m (regs ++ (if r then [14#4] else [])) start [] s
    ((Aligned start .word ∨ s.params.misaligned = .rotate) →
      ∃ t, exec (.tPush r list) s = .next t ∧
        RegistersAfter [(some (.s13 (bank13 s.cpsr.m)), start)] s.cpsr.t s t ∧ StoredWords words s.mem t.mem ∧
        t = { s with regs := t.regs, mem := t.mem, trace := blockWrites words ++ s.trace }) ∧
    ((Aligned (s.reg 13#4) .word ∨ s.params.misaligned = .rotate) →
      ∃ t, exec (.tPop r list) s = .next t ∧
        RegistersAfter (blockLoads s.cpsr.m regs (s.reg 13#4) s.mem ++
          [(some (.s13 (bank13 s.cpsr.m)), s.reg 13#4 + BitVec.ofNat 32 (4 * n))] ++
          (if r then [(none, s.mem.read32 (busAddr (s.reg 13#4 + BitVec.ofNat 32 (4 * regs.length)) .word))] else []))
          s.cpsr.t s t ∧
        t = { s with regs := t.regs, pc := t.pc, trace := blockReads n (s.reg 13#4) ++ s.trace })

/-- STMIA and LDMIA: ascending words from the base, which is always written back past them: by STMIA after the first
store, by LDMIA before the first load, so that a loaded base stays. The stored base is the spec's decision D16, the
misaligned accesses its general knowledge (G7). -/
def Obligations.ThumbMultipleTransfers : Prop :=
  ∀ (rb : LowReg) (list : BitVec 8) (s : State),
    let regs := regsOf (list.setWidth 16)
    let base := s.reg (lowReg rb)
    let wb : List RegWrite := [(some (.g rb.toFin), base + BitVec.ofNat 32 (4 * regs.length))]
    let words := blockStores s.cpsr.m regs base wb s
    (Aligned base .word ∨ s.params.misaligned = .rotate) →
    (∃ t, exec (.tStmia rb list) s = .next t ∧ RegistersAfter wb s.cpsr.t s t ∧ StoredWords words s.mem t.mem ∧
      t = { s with regs := t.regs, mem := t.mem, trace := blockWrites words ++ s.trace }) ∧
    ∃ t, exec (.tLdmia rb list) s = .next t ∧
      RegistersAfter (wb ++ blockLoads s.cpsr.m regs base s.mem) s.cpsr.t s t ∧
      t = { s with regs := t.regs, trace := blockReads regs.length base ++ s.trace }

/-- The THUMB branches, `a` being the address of the instruction: the fourteen conditional ones, the unconditional
one, and the two halves of the long branch with link, each of which runs alone. That each half runs alone is the
spec's decision D20. -/
def Obligations.ThumbBranches : Prop :=
  ∀ (s : State) (a : Word) (off : BitVec 11), s.cpsr.t = true → s.pc = a + 2#32 →
    (∀ (i : Instr) (c : CondCode) (o : BitVec 8), thumbCondForm i = some (c, o) →
      exec i s = .next { s with
        pc := if condPass c s.cpsr then branchMask true (a + 4#32 + o.signExtend 32 <<< 1) else a + 2#32 }) ∧
    (exec (.tB off) s = .next { s with pc := branchMask true (a + 4#32 + off.signExtend 32 <<< 1) }) ∧
    (∃ t, exec (.tBlHigh off) s = .next t ∧
      RegistersAfter [(some (.s14 (bank13 s.cpsr.m)), a + 4#32 + off.signExtend 32 <<< 12)] true s t ∧
      t = { s with regs := t.regs }) ∧
    ∃ t, exec (.tBlLow off) s = .next t ∧
      RegistersAfter [(some (.s14 (bank13 s.cpsr.m)), (a + 2#32) ||| 1#32),
        (none, s.regs.get (.s14 (bank13 s.cpsr.m)) + off.setWidth 32 <<< 1)] true s t ∧
      t = { s with regs := t.regs, pc := t.pc }
end

