-- ==== Sys2Proof/Laws/Bits.lean ====
section
/-! SUPPORT. Clearing low bits, as arithmetic on the unsigned value. -/

namespace Sys2Proof

theorem and_mask2_eq_shift (a : Word) : a &&& 0xFFFFFFFC#32 = (a >>> 2) <<< 2 := by
  ext i hi
  interval_cases i <;> simp

theorem and_mask1_eq_shift (a : Word) : a &&& 0xFFFFFFFE#32 = (a >>> 1) <<< 1 := by
  ext i hi
  interval_cases i <;> simp

/-- Clearing bits 1 and 0 rounds down to a multiple of 4. -/
theorem toNat_and_mask2 (a : Word) : (a &&& 0xFFFFFFFC#32).toNat = a.toNat - a.toNat % 4 := by
  have := a.isLt
  rw [and_mask2_eq_shift]
  simp only [BitVec.toNat_shiftLeft, BitVec.toNat_ushiftRight, Nat.shiftRight_eq_div_pow, Nat.shiftLeft_eq]
  omega

/-- Clearing bit 0 rounds down to a multiple of 2. -/
theorem toNat_and_mask1 (a : Word) : (a &&& 0xFFFFFFFE#32).toNat = a.toNat - a.toNat % 2 := by
  have := a.isLt
  rw [and_mask1_eq_shift]
  simp only [BitVec.toNat_shiftLeft, BitVec.toNat_ushiftRight, Nat.shiftRight_eq_div_pow, Nat.shiftLeft_eq]
  omega

/-- Bits 1 and 0 are the remainder by 4. -/
theorem toNat_and_three (a : Word) : (a &&& 3#32).toNat = a.toNat % 4 := by
  simpa using Nat.and_two_pow_sub_one_eq_mod a.toNat 2

/-- Bit 0 is the remainder by 2. -/
theorem toNat_and_one (a : Word) : (a &&& 1#32).toNat = a.toNat % 2 := by
  simp [Nat.and_one_is_mod]

theorem and_mask2_eq_self (a : Word) : a &&& 0xFFFFFFFC#32 = a ↔ a.toNat % 4 = 0 := by
  rw [← BitVec.toNat_inj, toNat_and_mask2]
  have := Nat.mod_le a.toNat 4
  omega

theorem and_mask1_eq_self (a : Word) : a &&& 0xFFFFFFFE#32 = a ↔ a.toNat % 2 = 0 := by
  rw [← BitVec.toNat_inj, toNat_and_mask1]
  have := Nat.mod_le a.toNat 2
  omega

theorem and_three_eq_zero (a : Word) : a &&& 3#32 = 0#32 ↔ a.toNat % 4 = 0 := by
  rw [← BitVec.toNat_inj, toNat_and_three]
  simp

theorem and_one_eq_zero (a : Word) : a &&& 1#32 = 0#32 ↔ a.toNat % 2 = 0 := by
  rw [← BitVec.toNat_inj, toNat_and_one]
  simp

end Sys2Proof
end

