-- ==== Sys2Proof/Laws/Memory.lean ====
section
/-! SUPPORT. The laws of the reference memory: a read after a write, and the canonical form. -/

namespace Sys2Proof.Machine.Memory

/-! ### Reading after writing -/

theorem read_insert (m : Memory) (a x : Nat) (b : Byte) :
    (m.insert a b).read x = if x = a then b else m.read x := by
  induction m with
  | nil => simp [insert, read]
  | cons c rest ih =>
    obtain ⟨k, y⟩ := c
    simp only [insert]
    split_ifs with h1 h2 <;> simp only [read] <;> split_ifs <;> simp_all

theorem read_erase (m : Memory) (a x : Nat) :
    (m.erase a).read x = if x = a then unlisted else m.read x := by
  induction m with
  | nil => simp [erase, read]
  | cons c rest ih =>
    obtain ⟨k, y⟩ := c
    by_cases h : a = k <;> by_cases h' : x = k <;> simp_all [erase, read]
    grind

/-- A byte reads as it was last written, and every other byte is left alone. -/
theorem read_write (m : Memory) (a x : Nat) (b : Byte) :
    (m.write a b).read x = if x = a then b else m.read x := by
  unfold write
  split_ifs with h1 h2 <;> simp_all [read_insert, read_erase]

/-- The byte at `x` after byte `k` of `v` is written above `a`. -/
theorem byte_putByte (m : Memory) (a v x : Word) (k : Nat) :
    (m.putByte a v k).byte x = if x = a + BitVec.ofNat 32 k then byteOf v k else m.byte x := by
  simp only [putByte, byte, read_write, ← BitVec.toNat_inj]

/-- The bytes after a byte store. -/
theorem byte_store_byte (m : Memory) (a v x : Word) :
    (m.store a .byte v).byte x = if x = a then byteOf v 0 else m.byte x := by
  simp [store, byte_putByte]

/-- The bytes after a halfword store. -/
theorem byte_store_half (m : Memory) (a v x : Word) :
    (m.store a .half v).byte x =
      if x = a + 1#32 then byteOf v 1 else if x = a then byteOf v 0 else m.byte x := by
  simp [store, byte_putByte]

/-- The bytes after a word store. -/
theorem byte_store_word (m : Memory) (a v x : Word) :
    (m.store a .word v).byte x =
      if x = a + 3#32 then byteOf v 3 else if x = a + 2#32 then byteOf v 2
      else if x = a + 1#32 then byteOf v 1 else if x = a then byteOf v 0 else m.byte x := by
  simp [store, byte_putByte]

/-! ### The canonical form -/

theorem wfFrom_mono {lo lo' : Nat} {m : Memory} (h : lo ≤ lo') (hm : wfFrom lo' m = true) : wfFrom lo m = true := by
  cases m with
  | nil => rfl
  | cons c rest =>
    simp only [wfFrom, Bool.and_eq_true, decide_eq_true_eq] at hm ⊢
    exact ⟨⟨⟨by omega, hm.1.1.2⟩, hm.1.2⟩, hm.2⟩

theorem wfFrom_erase {lo : Nat} {m : Memory} (a : Nat) (hm : wfFrom lo m = true) : wfFrom lo (m.erase a) = true := by
  induction m generalizing lo with
  | nil => rfl
  | cons c rest ih =>
    obtain ⟨k, y⟩ := c
    simp only [wfFrom, Bool.and_eq_true, decide_eq_true_eq] at hm
    simp only [erase]
    split_ifs with h
    · exact wfFrom_mono (by omega) (ih hm.2)
    · simp only [wfFrom, Bool.and_eq_true, decide_eq_true_eq]
      exact ⟨hm.1, ih hm.2⟩

theorem wfFrom_insert {lo a : Nat} {b : Byte} {m : Memory} (hlo : lo ≤ a) (ha : a < 2 ^ 32) (hb : b ≠ unlisted)
    (hm : wfFrom lo m = true) : wfFrom lo (m.insert a b) = true := by
  induction m generalizing lo with
  | nil => simpa [insert, wfFrom, hlo, hb] using ha
  | cons c rest ih =>
    obtain ⟨k, y⟩ := c
    simp only [wfFrom, Bool.and_eq_true, decide_eq_true_eq] at hm
    simp only [insert]
    split_ifs with h1 h2 <;> simp only [wfFrom, Bool.and_eq_true, decide_eq_true_eq]
    · exact ⟨⟨⟨hlo, ha⟩, hb⟩, h1 ▸ hm.2⟩
    · exact ⟨⟨⟨hlo, ha⟩, hb⟩, ⟨⟨⟨by omega, hm.1.1.2⟩, hm.1.2⟩, hm.2⟩⟩
    · exact ⟨hm.1, ih (by omega) hm.2⟩

/-- A write of one byte keeps the canonical form. -/
theorem wf_write {m : Memory} {a : Nat} {b : Byte} (ha : a < 2 ^ 32) (hm : m.wf = true) : (m.write a b).wf = true := by
  unfold wf at *
  unfold write
  split_ifs with h
  · exact wfFrom_erase a hm
  · exact wfFrom_insert (Nat.zero_le a) ha h hm

theorem wf_putByte {m : Memory} (a v : Word) (k : Nat) (hm : m.wf = true) : (m.putByte a v k).wf = true :=
  wf_write (BitVec.isLt _) hm

/-- A store keeps the canonical form. -/
theorem wf_store {m : Memory} (a : Word) (n : Width) (v : Word) (hm : m.wf = true) : (m.store a n v).wf = true := by
  cases n
  · exact wf_putByte _ _ _ hm
  · exact wf_putByte _ _ _ (wf_putByte _ _ _ hm)
  · exact wf_putByte _ _ _ (wf_putByte _ _ _ (wf_putByte _ _ _ (wf_putByte _ _ _ hm)))

end Sys2Proof.Machine.Memory
end

