-- ==== Sys2Proof/Laws/State.lean ====
section
/-! SUPPORT. What each update of the state does to each field, one lemma per field and update, so that no proof unfolds
a record update. -/

namespace Sys2Proof.Machine.State

/-- Two states with equal fields are equal. -/
theorem eq_of_fields {s t : State} (h1 : s.regs = t.regs) (h2 : s.pc = t.pc) (h3 : s.cpsr = t.cpsr)
    (h4 : s.spsr = t.spsr) (h5 : s.mem = t.mem) (h6 : s.params = t.params) (h7 : s.trace = t.trace)
    (h8 : s.schedule = t.schedule) (h9 : s.resets = t.resets) : s = t := by
  cases s
  cases t
  simp_all

/-! ### Recording a transaction -/

@[simp] theorem regs_emit (s : State) (e : Event) : (s.emit e).regs = s.regs := rfl
@[simp] theorem pc_emit (s : State) (e : Event) : (s.emit e).pc = s.pc := rfl
@[simp] theorem cpsr_emit (s : State) (e : Event) : (s.emit e).cpsr = s.cpsr := rfl
@[simp] theorem spsr_emit (s : State) (e : Event) : (s.emit e).spsr = s.spsr := rfl
@[simp] theorem mem_emit (s : State) (e : Event) : (s.emit e).mem = s.mem := rfl
@[simp] theorem params_emit (s : State) (e : Event) : (s.emit e).params = s.params := rfl
@[simp] theorem trace_emit (s : State) (e : Event) : (s.emit e).trace = e :: s.trace := rfl
@[simp] theorem schedule_emit (s : State) (e : Event) : (s.emit e).schedule = s.schedule := rfl
@[simp] theorem resets_emit (s : State) (e : Event) : (s.emit e).resets = s.resets := rfl

/-! ### The status register -/

@[simp] theorem regs_withCpsr (s : State) (p : Psr) : (s.withCpsr p).regs = s.regs := rfl
@[simp] theorem pc_withCpsr (s : State) (p : Psr) : (s.withCpsr p).pc = s.pc := rfl
@[simp] theorem cpsr_withCpsr (s : State) (p : Psr) : (s.withCpsr p).cpsr = p := rfl
@[simp] theorem spsr_withCpsr (s : State) (p : Psr) : (s.withCpsr p).spsr = s.spsr := rfl
@[simp] theorem mem_withCpsr (s : State) (p : Psr) : (s.withCpsr p).mem = s.mem := rfl
@[simp] theorem params_withCpsr (s : State) (p : Psr) : (s.withCpsr p).params = s.params := rfl
@[simp] theorem trace_withCpsr (s : State) (p : Psr) : (s.withCpsr p).trace = s.trace := rfl
@[simp] theorem schedule_withCpsr (s : State) (p : Psr) : (s.withCpsr p).schedule = s.schedule := rfl
@[simp] theorem resets_withCpsr (s : State) (p : Psr) : (s.withCpsr p).resets = s.resets := rfl

/-! ### A branch -/

@[simp] theorem regs_branch (s : State) (t : Word) : (s.branch t).regs = s.regs := rfl
@[simp] theorem pc_branch (s : State) (t : Word) : (s.branch t).pc = if s.cpsr.t then t &&& 0xFFFFFFFE#32 else t &&& 0xFFFFFFFC#32 := rfl
@[simp] theorem cpsr_branch (s : State) (t : Word) : (s.branch t).cpsr = s.cpsr := rfl
@[simp] theorem spsr_branch (s : State) (t : Word) : (s.branch t).spsr = s.spsr := rfl
@[simp] theorem mem_branch (s : State) (t : Word) : (s.branch t).mem = s.mem := rfl
@[simp] theorem params_branch (s : State) (t : Word) : (s.branch t).params = s.params := rfl
@[simp] theorem trace_branch (s : State) (t : Word) : (s.branch t).trace = s.trace := rfl
@[simp] theorem schedule_branch (s : State) (t : Word) : (s.branch t).schedule = s.schedule := rfl
@[simp] theorem resets_branch (s : State) (t : Word) : (s.branch t).resets = s.resets := rfl

/-! ### A register write: everything but the registers and the program counter is left alone -/

@[simp] theorem cpsr_writeAt (s : State) (p : Option PReg) (v : Word) : (s.writeAt p v).cpsr = s.cpsr := by cases p <;> rfl
@[simp] theorem spsr_writeAt (s : State) (p : Option PReg) (v : Word) : (s.writeAt p v).spsr = s.spsr := by cases p <;> rfl
@[simp] theorem mem_writeAt (s : State) (p : Option PReg) (v : Word) : (s.writeAt p v).mem = s.mem := by cases p <;> rfl
@[simp] theorem params_writeAt (s : State) (p : Option PReg) (v : Word) : (s.writeAt p v).params = s.params := by cases p <;> rfl
@[simp] theorem trace_writeAt (s : State) (p : Option PReg) (v : Word) : (s.writeAt p v).trace = s.trace := by cases p <;> rfl
@[simp] theorem schedule_writeAt (s : State) (p : Option PReg) (v : Word) : (s.writeAt p v).schedule = s.schedule := by cases p <;> rfl
@[simp] theorem resets_writeAt (s : State) (p : Option PReg) (v : Word) : (s.writeAt p v).resets = s.resets := by cases p <;> rfl

@[simp] theorem cpsr_setReg (s : State) (i : Reg) (v : Word) : (s.setReg i v).cpsr = s.cpsr := by simp [setReg]
@[simp] theorem spsr_setReg (s : State) (i : Reg) (v : Word) : (s.setReg i v).spsr = s.spsr := by simp [setReg]
@[simp] theorem mem_setReg (s : State) (i : Reg) (v : Word) : (s.setReg i v).mem = s.mem := by simp [setReg]
@[simp] theorem params_setReg (s : State) (i : Reg) (v : Word) : (s.setReg i v).params = s.params := by simp [setReg]
@[simp] theorem trace_setReg (s : State) (i : Reg) (v : Word) : (s.setReg i v).trace = s.trace := by simp [setReg]
@[simp] theorem schedule_setReg (s : State) (i : Reg) (v : Word) : (s.setReg i v).schedule = s.schedule := by simp [setReg]
@[simp] theorem resets_setReg (s : State) (i : Reg) (v : Word) : (s.setReg i v).resets = s.resets := by simp [setReg]

@[simp] theorem cpsr_setUserReg (s : State) (i : Reg) (v : Word) : (s.setUserReg i v).cpsr = s.cpsr := by simp [setUserReg]
@[simp] theorem spsr_setUserReg (s : State) (i : Reg) (v : Word) : (s.setUserReg i v).spsr = s.spsr := by simp [setUserReg]
@[simp] theorem mem_setUserReg (s : State) (i : Reg) (v : Word) : (s.setUserReg i v).mem = s.mem := by simp [setUserReg]
@[simp] theorem params_setUserReg (s : State) (i : Reg) (v : Word) : (s.setUserReg i v).params = s.params := by simp [setUserReg]
@[simp] theorem trace_setUserReg (s : State) (i : Reg) (v : Word) : (s.setUserReg i v).trace = s.trace := by simp [setUserReg]
@[simp] theorem schedule_setUserReg (s : State) (i : Reg) (v : Word) : (s.setUserReg i v).schedule = s.schedule := by simp [setUserReg]
@[simp] theorem resets_setUserReg (s : State) (i : Reg) (v : Word) : (s.setUserReg i v).resets = s.resets := by simp [setUserReg]

/-! ### Saved status registers -/

@[simp] theorem regs_writeSpsr (s : State) (p : Psr) : (s.writeSpsr p).regs = s.regs := by unfold writeSpsr; split <;> rfl
@[simp] theorem pc_writeSpsr (s : State) (p : Psr) : (s.writeSpsr p).pc = s.pc := by unfold writeSpsr; split <;> rfl
@[simp] theorem cpsr_writeSpsr (s : State) (p : Psr) : (s.writeSpsr p).cpsr = s.cpsr := by unfold writeSpsr; split <;> rfl
@[simp] theorem mem_writeSpsr (s : State) (p : Psr) : (s.writeSpsr p).mem = s.mem := by unfold writeSpsr; split <;> rfl
@[simp] theorem params_writeSpsr (s : State) (p : Psr) : (s.writeSpsr p).params = s.params := by unfold writeSpsr; split <;> rfl
@[simp] theorem trace_writeSpsr (s : State) (p : Psr) : (s.writeSpsr p).trace = s.trace := by unfold writeSpsr; split <;> rfl
@[simp] theorem schedule_writeSpsr (s : State) (p : Psr) : (s.writeSpsr p).schedule = s.schedule := by unfold writeSpsr; split <;> rfl
@[simp] theorem resets_writeSpsr (s : State) (p : Psr) : (s.writeSpsr p).resets = s.resets := by unfold writeSpsr; split <;> rfl

@[simp] theorem regs_reloadCpsr (s : State) : (s.reloadCpsr).regs = s.regs := by unfold reloadCpsr; split <;> rfl
@[simp] theorem pc_reloadCpsr (s : State) : (s.reloadCpsr).pc = s.pc := by unfold reloadCpsr; split <;> rfl
@[simp] theorem cpsr_reloadCpsr (s : State) : (s.reloadCpsr).cpsr = s.readSpsr := by unfold reloadCpsr readSpsr; split <;> rfl
@[simp] theorem spsr_reloadCpsr (s : State) : (s.reloadCpsr).spsr = s.spsr := by unfold reloadCpsr; split <;> rfl
@[simp] theorem mem_reloadCpsr (s : State) : (s.reloadCpsr).mem = s.mem := by unfold reloadCpsr; split <;> rfl
@[simp] theorem params_reloadCpsr (s : State) : (s.reloadCpsr).params = s.params := by unfold reloadCpsr; split <;> rfl
@[simp] theorem trace_reloadCpsr (s : State) : (s.reloadCpsr).trace = s.trace := by unfold reloadCpsr; split <;> rfl
@[simp] theorem schedule_reloadCpsr (s : State) : (s.reloadCpsr).schedule = s.schedule := by unfold reloadCpsr; split <;> rfl
@[simp] theorem resets_reloadCpsr (s : State) : (s.reloadCpsr).resets = s.resets := by unfold reloadCpsr; split <;> rfl

/-! ### Memory accesses -/

@[simp] theorem regs_load (s : State) (k : LoadKind) (a : Word) : (s.load k a).regs = s.regs := rfl
@[simp] theorem pc_load (s : State) (k : LoadKind) (a : Word) : (s.load k a).pc = s.pc := rfl
@[simp] theorem cpsr_load (s : State) (k : LoadKind) (a : Word) : (s.load k a).cpsr = s.cpsr := rfl
@[simp] theorem spsr_load (s : State) (k : LoadKind) (a : Word) : (s.load k a).spsr = s.spsr := rfl
@[simp] theorem mem_load (s : State) (k : LoadKind) (a : Word) : (s.load k a).mem = s.mem := rfl
@[simp] theorem params_load (s : State) (k : LoadKind) (a : Word) : (s.load k a).params = s.params := rfl
@[simp] theorem trace_load (s : State) (k : LoadKind) (a : Word) : (s.load k a).trace = loadEvent k a :: s.trace := rfl
@[simp] theorem schedule_load (s : State) (k : LoadKind) (a : Word) : (s.load k a).schedule = s.schedule := rfl
@[simp] theorem resets_load (s : State) (k : LoadKind) (a : Word) : (s.load k a).resets = s.resets := rfl

@[simp] theorem regs_store (s : State) (a : Word) (n : Width) (v : Word) : (s.store a n v).regs = s.regs := rfl
@[simp] theorem pc_store (s : State) (a : Word) (n : Width) (v : Word) : (s.store a n v).pc = s.pc := rfl
@[simp] theorem cpsr_store (s : State) (a : Word) (n : Width) (v : Word) : (s.store a n v).cpsr = s.cpsr := rfl
@[simp] theorem spsr_store (s : State) (a : Word) (n : Width) (v : Word) : (s.store a n v).spsr = s.spsr := rfl
@[simp] theorem mem_store (s : State) (a : Word) (n : Width) (v : Word) : (s.store a n v).mem = s.mem.store (busAddr a n) n v := rfl
@[simp] theorem params_store (s : State) (a : Word) (n : Width) (v : Word) : (s.store a n v).params = s.params := rfl
@[simp] theorem trace_store (s : State) (a : Word) (n : Width) (v : Word) : (s.store a n v).trace = .write (busAddr a n) n (truncateTo n v) :: s.trace := rfl
@[simp] theorem schedule_store (s : State) (a : Word) (n : Width) (v : Word) : (s.store a n v).schedule = s.schedule := rfl
@[simp] theorem resets_store (s : State) (a : Word) (n : Width) (v : Word) : (s.store a n v).resets = s.resets := rfl

/-! ### The fetch -/

@[simp] theorem regs_advance (s : State) : (advance s).regs = s.regs := rfl
@[simp] theorem pc_advance (s : State) : (advance s).pc = s.pc + s.size := rfl
@[simp] theorem cpsr_advance (s : State) : (advance s).cpsr = s.cpsr := rfl
@[simp] theorem spsr_advance (s : State) : (advance s).spsr = s.spsr := rfl
@[simp] theorem mem_advance (s : State) : (advance s).mem = s.mem := rfl
@[simp] theorem params_advance (s : State) : (advance s).params = s.params := rfl
@[simp] theorem trace_advance (s : State) : (advance s).trace = .fetch s.pc (fetchWidth s) :: s.trace := rfl
@[simp] theorem schedule_advance (s : State) : (advance s).schedule = s.schedule := rfl
@[simp] theorem resets_advance (s : State) : (advance s).resets = s.resets := rfl

/-! ### The Undefined report -/

@[simp] theorem regs_reportUndefined (s : State) (k : UndefKind) (w : Word) : (reportUndefined k w s).regs = s.regs := rfl
@[simp] theorem pc_reportUndefined (s : State) (k : UndefKind) (w : Word) : (reportUndefined k w s).pc = s.pc := rfl
@[simp] theorem cpsr_reportUndefined (s : State) (k : UndefKind) (w : Word) : (reportUndefined k w s).cpsr = s.cpsr := rfl
@[simp] theorem spsr_reportUndefined (s : State) (k : UndefKind) (w : Word) : (reportUndefined k w s).spsr = s.spsr := rfl
@[simp] theorem mem_reportUndefined (s : State) (k : UndefKind) (w : Word) : (reportUndefined k w s).mem = s.mem := rfl
@[simp] theorem params_reportUndefined (s : State) (k : UndefKind) (w : Word) : (reportUndefined k w s).params = s.params := rfl
@[simp] theorem trace_reportUndefined (s : State) (k : UndefKind) (w : Word) : (reportUndefined k w s).trace = .undefined k s.instrAddr w :: s.trace := rfl
@[simp] theorem schedule_reportUndefined (s : State) (k : UndefKind) (w : Word) : (reportUndefined k w s).schedule = s.schedule := rfl
@[simp] theorem resets_reportUndefined (s : State) (k : UndefKind) (w : Word) : (reportUndefined k w s).resets = s.resets := rfl

end Sys2Proof.Machine.State
end

