-- ==== Sys2Proof/Laws/Registers.lean ====
section
/-! SUPPORT. The laws of the banked register file: a register reads as it was last written, and a write leaves every
other storage alone. -/

namespace Sys2Proof.Machine

/-! ### Physical registers -/

@[simp] theorem Banked.get_set {α : Type} (x : Banked α) (b b' : Bank) (v : α) :
    (x.set b v).get b' = if b' = b then v else x.get b' := by
  cases b <;> cases b' <;> rfl

@[simp] theorem SpsrFile.get_set (x : SpsrFile) (b b' : SpsrBank) (p : Psr) :
    (x.set b p).get b' = if b' = b then p else x.get b' := by
  cases b <;> cases b' <;> rfl

/-- A physical register after a write of a physical register. -/
@[simp] theorem Regs.get_set (r : Regs) (p q : PReg) (v : Word) :
    (r.set p v).get q = if q = p then v else r.get q := by
  cases p <;> cases q <;> simp [Regs.get, Regs.set, Vector.getElem_set, eq_comm, Fin.ext_iff]

/-! ### Which storage a number names -/

/-- Only r15 names no general register. -/
theorem physReg_eq_none {m : BitVec 5} {i : Reg} : physReg m i = none ↔ i = 15#4 := by
  have h : i = 15#4 ↔ i.toNat = 15 := by simp [← BitVec.toNat_inj]
  have := i.isLt
  rw [h, physReg]
  split_ifs <;> simp <;> omega

@[simp] theorem physReg_pcReg (m : BitVec 5) : physReg m pcReg = none := physReg_eq_none.2 rfl

/-- A 3-bit register number names the same register in every mode. -/
@[simp] theorem physReg_lowReg (m : BitVec 5) (i : LowReg) : physReg m (lowReg i) = some (.g ⟨i.toNat, i.isLt⟩) := by
  have h : (lowReg i).toNat = i.toNat := by simp [lowReg]; omega
  have hlt : (lowReg i).toNat < 8 := h ▸ i.isLt
  rw [physReg, dif_pos hlt]
  simp [h]

@[simp] theorem physReg_sp (m : BitVec 5) : physReg m sp = some (.s13 (bank13 m)) := rfl

@[simp] theorem physReg_lr (m : BitVec 5) : physReg m lr = some (.s14 (bank13 m)) := rfl

/-! ### Register writes -/

namespace State

/-- A physical register after a write. -/
@[simp] theorem get_writeAt (s : State) (p : Option PReg) (v : Word) (q : PReg) :
    (s.writeAt p v).regs.get q = if p = some q then v else s.regs.get q := by
  cases p <;> simp [writeAt, eq_comm]

/-- The program counter after a write: a write of r15 is a branch. -/
@[simp] theorem pc_writeAt (s : State) (p : Option PReg) (v : Word) :
    (s.writeAt p v).pc = if p = none then (s.branch v).pc else s.pc := by
  cases p <;> simp [writeAt]

@[simp] theorem get_setReg (s : State) (i : Reg) (v : Word) (q : PReg) :
    (s.setReg i v).regs.get q = if physReg s.cpsr.m i = some q then v else s.regs.get q := by
  simp [setReg]

@[simp] theorem pc_setReg (s : State) (i : Reg) (v : Word) :
    (s.setReg i v).pc = if i = 15#4 then (s.branch v).pc else s.pc := by
  simp [setReg, physReg_eq_none]

@[simp] theorem get_setUserReg (s : State) (i : Reg) (v : Word) (q : PReg) :
    (s.setUserReg i v).regs.get q = if physReg modeUsr i = some q then v else s.regs.get q := by
  simp [setUserReg]

@[simp] theorem pc_setUserReg (s : State) (i : Reg) (v : Word) :
    (s.setUserReg i v).pc = if i = 15#4 then (s.branch v).pc else s.pc := by
  simp [setUserReg, physReg_eq_none]

end State

/-- Two register files that agree on every physical register are equal. -/
theorem Regs.ext_get {r r' : Regs} (h : ∀ p, r.get p = r'.get p) : r = r' := by
  obtain ⟨g, hh, f, a, b⟩ := r
  obtain ⟨g', hh', f', a', b'⟩ := r'
  have h1 : g = g' := Vector.ext fun k hk => h (.g ⟨k, hk⟩)
  have h2 : hh = hh' := Vector.ext fun k hk => h (.h ⟨k, hk⟩)
  have h3 : f = f' := Vector.ext fun k hk => h (.hFiq ⟨k, hk⟩)
  have h4 : a = a' := by
    have hb : ∀ k, a.get k = a'.get k := fun k => h (.s13 k)
    cases a; cases a'
    simpa [Banked.get] using And.intro (hb .usr) ⟨hb .fiq, hb .irq, hb .svc, hb .abt, hb .und⟩
  have h5 : b = b' := by
    have hb : ∀ k, b.get k = b'.get k := fun k => h (.s14 k)
    cases b; cases b'
    simpa [Banked.get] using And.intro (hb .usr) ⟨hb .fiq, hb .irq, hb .svc, hb .abt, hb .und⟩
  subst h1 h2 h3 h4 h5
  rfl

end Sys2Proof.Machine
end

