-- ==== Sys2Proof/Laws/Ops.lean ====
section
/-! SUPPORT. What each shared operation can do, said once: the gates, the register writes in order, the accesses, and
taking an exception. -/

namespace Sys2Proof.Machine

/-! ### The gates -/

@[simp] theorem whenPassed_of_pass {c : CondCode} {s : State} (h : condPass c s.cpsr = true) (o : Result) :
    whenPassed c s o = o := by simp [whenPassed, h]

@[simp] theorem whenPassed_of_fail {c : CondCode} {s : State} (h : condPass c s.cpsr = false) (o : Result) :
    whenPassed c s o = .next s := by simp [whenPassed, h]

/-- What a gated instruction can do: nothing, or its effect. -/
theorem whenPassed_eq_next {c : CondCode} {s t : State} {o : Result} (h : whenPassed c s o = .next t) :
    t = s ∨ o = .next t := by
  unfold whenPassed at h
  split at h
  · exact .inr h
  · cases h; exact .inl rfl

/-- The bits below an access are 0 exactly at a multiple of its width. -/
theorem naturallyAligned_iff {a : Word} {n : Width} : naturallyAligned a n = true ↔ Aligned a n := by
  cases n <;> simp [naturallyAligned, busAddr, Aligned, Width.bytes, and_mask2_eq_self, and_mask1_eq_self, Nat.mod_one]

/-- Where an access is admitted: aligned, or the policy is `rotate`. -/
theorem admits_iff {s : State} {a : Word} {n : Width} :
    s.admits a n = true ↔ Aligned a n ∨ s.params.misaligned = .rotate := by
  simp [State.admits, naturallyAligned_iff]

theorem whenAdmitted_of_admitted {s : State} {a : Word} {n : Width} (o : Result)
    (h : Aligned a n ∨ s.params.misaligned = .rotate) : whenAdmitted s a n o = o := by
  simp [whenAdmitted, admits_iff.2 h]

/-- What an instruction that makes an access can do: its effect, where the access is admitted. -/
theorem whenAdmitted_eq_next {s t : State} {a : Word} {n : Width} {o : Result}
    (h : whenAdmitted s a n o = .next t) : o = .next t := by
  unfold whenAdmitted at h
  split at h
  · exact h
  · cases h

/-! ### Register writes in order -/

theorem registersAfter_nil {b : Bool} {s t : State} (hr : t.regs = s.regs) (hp : t.pc = s.pc) :
    RegistersAfter [] b s t := ⟨fun _ => by rw [hr]; rfl, hp⟩

/-- One more write at the end of a sequence. -/
theorem valueAfter_append (ws ws' : List RegWrite) (p : PReg) (old : Word) :
    valueAfter (ws ++ ws') p old = valueAfter ws' p (valueAfter ws p old) := by
  induction ws generalizing old with
  | nil => rfl
  | cons w ws ih => exact ih _

theorem pcAfter_append (b : Bool) (ws ws' : List RegWrite) (old : Word) :
    pcAfter b (ws ++ ws') old = pcAfter b ws' (pcAfter b ws old) := by
  induction ws generalizing old with
  | nil => rfl
  | cons w ws ih => exact ih _

/-- A register write at the end of a sequence of writes, the instruction set being the one that masks r15. -/
theorem registersAfter_writeAt {ws : List RegWrite} {s t : State} (q : Option PReg) (v : Word)
    (h : RegistersAfter ws t.cpsr.t s t) : RegistersAfter (ws ++ [(q, v)]) t.cpsr.t s (t.writeAt q v) := by
  refine ⟨fun p => ?_, ?_⟩
  · simp [valueAfter_append, valueAfter, h.1 p]
  · simp [pcAfter_append, pcAfter, h.2, branchMask]

/-! ### Stores -/

/-- A store sets the bytes of its width and no other. -/
theorem stored_store (m : Memory) (a v : Word) (n : Width) : Stored a n v m (m.store a n v) := by
  refine ⟨fun k hk => ?_, fun x hx => ?_⟩
  · cases n <;> simp only [Width.bytes] at hk <;> interval_cases k <;>
      simp [Memory.byte_store_byte, Memory.byte_store_half, Memory.byte_store_word]
  · cases n <;> simp only [Width.bytes] at hx
    · simp [Memory.byte_store_byte, show x ≠ a by simpa using hx 0 (by omega)]
    · simp [Memory.byte_store_half, show x ≠ a by simpa using hx 0 (by omega), hx 1 (by omega)]
    · simp [Memory.byte_store_word, show x ≠ a by simpa using hx 0 (by omega), hx 1 (by omega), hx 2 (by omega),
        hx 3 (by omega)]

/-! ### Status -/

/-- The mode, the masks and T after an entry. -/
@[simp] theorem cpsr_takeException (e : ArchException) (s : State) : (takeException e s).cpsr = entryPsr e s.cpsr := by
  unfold takeException
  split <;> simp

end Sys2Proof.Machine
end

