-- ==== Sys2Proof/Laws/DataProcessing.lean ====
section
/-! SUPPORT. What the templates of data processing do (R181 to R183). -/

namespace Sys2Proof.Machine

/-- A register write after a change of the status register, as one record. -/
theorem setReg_withCpsr_spec (s : State) (p : Psr) (rd : Reg) (r : Word) :
    RegistersAfter [(physReg p.m rd, r)] p.t s ((s.withCpsr p).setReg rd r) ∧
      (s.withCpsr p).setReg rd r =
        { s with regs := ((s.withCpsr p).setReg rd r).regs, pc := ((s.withCpsr p).setReg rd r).pc, cpsr := p } := by
  refine ⟨registersAfter_writeAt (ws := []) (t := s.withCpsr p) _ _ (registersAfter_nil rfl rfl), ?_⟩
  unfold State.setReg State.writeAt
  split <;> rfl

/-- A register write, as one record. -/
theorem setReg_spec (s : State) (rd : Reg) (r : Word) :
    RegistersAfter [(s.phys rd, r)] s.cpsr.t s (s.setReg rd r) ∧
      s.setReg rd r = { s with regs := (s.setReg rd r).regs, pc := (s.setReg rd r).pc } :=
  setReg_withCpsr_spec s s.cpsr rd r

/-- The flags and the reload of a data-processing instruction, as one change of the status register. -/
theorem dpReload_eq (sf : Bool) (rd : Reg) (p : Psr) (s : State) (hm : p.m = s.cpsr.m) :
    dpReload sf rd (if sf then s.withCpsr p else s) = s.withCpsr (statusAfter sf rd p s) := by
  unfold dpReload statusAfter State.reloadCpsr pcReg
  cases sf <;> by_cases h : rd = 15#4 <;> simp [h, State.withCpsr, hm]
  cases spsrBank s.cpsr.m <;> rfl

/-- The status register that a reload brings may name other storage, but not for a destination below r15. -/
theorem physReg_statusAfter (sf : Bool) (rd : Reg) (p : Psr) (s : State) (hm : p.m = s.cpsr.m) :
    physReg (statusAfter sf rd p s).m rd = s.phys rd := by
  by_cases h : rd = 15#4
  · rw [State.phys, physReg_eq_none.2 h, physReg_eq_none.2 h]
  · simp only [statusAfter, h, decide_false, Bool.and_false, Bool.false_eq_true, if_false, State.phys]
    split <;> simp [hm]

/-- The logical template. -/
theorem dpLogical_spec (sf : Bool) (rd : Reg) (r : Word) (sc : Bool) (s : State) :
    let p := statusAfter sf rd (s.cpsr.setNZC r sc) s
    RegistersAfter [(s.phys rd, r)] p.t s (dpLogical sf rd r sc s) ∧
      dpLogical sf rd r sc s =
        { s with regs := (dpLogical sf rd r sc s).regs, pc := (dpLogical sf rd r sc s).pc, cpsr := p } := by
  have h := setReg_withCpsr_spec s (statusAfter sf rd (s.cpsr.setNZC r sc) s) rd r
  rw [physReg_statusAfter sf rd (s.cpsr.setNZC r sc) s rfl, ← dpReload_eq sf rd (s.cpsr.setNZC r sc) s rfl] at h
  exact h

/-- The arithmetic template. -/
theorem dpArith_spec (sf : Bool) (rd : Reg) (f : Flagged) (s : State) :
    let p := statusAfter sf rd (s.cpsr.setNZCV f) s
    RegistersAfter [(s.phys rd, f.r)] p.t s (dpArith sf rd f s) ∧
      dpArith sf rd f s =
        { s with regs := (dpArith sf rd f s).regs, pc := (dpArith sf rd f s).pc, cpsr := p } := by
  have h := setReg_withCpsr_spec s (statusAfter sf rd (s.cpsr.setNZCV f) s) rd f.r
  rw [physReg_statusAfter sf rd (s.cpsr.setNZCV f) s rfl, ← dpReload_eq sf rd (s.cpsr.setNZCV f) s rfl] at h
  exact h

end Sys2Proof.Machine
end

