-- ==== Sys2Proof/Laws/Transfer.lean ====
section
/-! SUPPORT. What the transfers of registers to and from memory do. -/

namespace Sys2Proof.Machine

/-! ### Changes of the registers alone -/

/-- The state `t` is `s` with other registers and another program counter. -/
def SameButRegs (s t : State) : Prop := t = { s with regs := t.regs, pc := t.pc }

theorem SameButRegs.refl (s : State) : SameButRegs s s := rfl

theorem SameButRegs.writeAt {s t : State} (h : SameButRegs s t) (q : Option PReg) (v : Word) :
    SameButRegs s (t.writeAt q v) := by
  unfold SameButRegs at *
  rw [h]
  cases q <;> rfl

theorem SameButRegs.setReg {s t : State} (h : SameButRegs s t) (i : Reg) (v : Word) : SameButRegs s (t.setReg i v) :=
  h.writeAt _ _

theorem SameButRegs.cpsr {s t : State} (h : SameButRegs s t) : t.cpsr = s.cpsr := by rw [h]

theorem SameButRegs.mem {s t : State} (h : SameButRegs s t) : t.mem = s.mem := by rw [h]

theorem SameButRegs.spsr {s t : State} (h : SameButRegs s t) : t.spsr = s.spsr := by rw [h]

theorem SameButRegs.params {s t : State} (h : SameButRegs s t) : t.params = s.params := by rw [h]

theorem SameButRegs.trace {s t : State} (h : SameButRegs s t) : t.trace = s.trace := by rw [h]

theorem SameButRegs.schedule {s t : State} (h : SameButRegs s t) : t.schedule = s.schedule := by rw [h]

theorem SameButRegs.resets {s t : State} (h : SameButRegs s t) : t.resets = s.resets := by rw [h]

/-! ### One register -/

/-- The write-back of a base register. -/
theorem writeBack_spec (wb : Bool) (rn : Reg) (ea : Word) (s : State) :
    RegistersAfter (if wb then [(s.phys rn, ea)] else []) s.cpsr.t s (writeBack wb rn ea s) ∧
      SameButRegs s (writeBack wb rn ea s) := by
  cases wb
  · exact ⟨registersAfter_nil rfl rfl, .refl s⟩
  · exact setReg_spec s rn ea

/-- A transferred register, of the User bank or the current one, is a write of the storage it names. -/
theorem setTransferReg_eq (user : Bool) (rd : Reg) (v : Word) (s : State) :
    setTransferReg user rd v s = s.writeAt (physReg (if user then modeUsr else s.cpsr.m) rd) v := by
  cases user <;> rfl

/-- The value of a transferred register is that of the storage it names; r15 is the value it reads as. -/
theorem transferReg_eq (user : Bool) (rd : Reg) (s : State) :
    transferReg user rd s =
      match physReg (if user then modeUsr else s.cpsr.m) rd with
      | some p => s.regs.get p
      | none => s.r15 := by
  cases user <;> rfl

/-- A load: the write-back, then the transferred register. -/
theorem loadTransfer_spec {k : LoadKind} {user wb : Bool} {rn rd : Reg} {x : Indexed} {s : State}
    (h : Aligned x.addr k.width ∨ s.params.misaligned = .rotate) :
    ∃ t, loadTransfer k user wb rn rd x s = .next t ∧
      RegistersAfter ((if wb then [(s.phys rn, x.ea)] else []) ++
        [(physReg (if user then modeUsr else s.cpsr.m) rd, loadValue s.mem k x.addr)]) s.cpsr.t s t ∧
      t = { s with regs := t.regs, pc := t.pc, trace := loadEvent k x.addr :: s.trace } := by
  refine ⟨_, whenAdmitted_of_admitted _ h, ?_, ?_⟩
  · have hw := (writeBack_spec wb rn x.ea (s.load k x.addr))
    rw [setTransferReg_eq, hw.2.cpsr]
    have := registersAfter_writeAt (physReg (if user then modeUsr else s.cpsr.m) rd) (loadValue s.mem k x.addr)
      (show RegistersAfter _ (writeBack wb rn x.ea (s.load k x.addr)).cpsr.t s _ from hw.2.cpsr ▸ hw.1)
    rwa [hw.2.cpsr] at this
  · have hw := (writeBack_spec wb rn x.ea (s.load k x.addr)).2
    rw [setTransferReg_eq]
    exact hw.writeAt _ _

/-- A store: the value from before the write-back, then the write-back. -/
theorem storeTransfer_spec {n : Width} {user wb : Bool} {rn rd : Reg} {x : Indexed} {s : State}
    (h : Aligned x.addr n ∨ s.params.misaligned = .rotate) :
    ∃ t, storeTransfer n user wb rn rd x s = .next t ∧
      RegistersAfter (if wb then [(s.phys rn, x.ea)] else []) s.cpsr.t s t ∧
      Stored (busAddr x.addr n) n (transferReg user rd s) s.mem t.mem ∧
      t = { s with regs := t.regs
                   pc := t.pc
                   mem := t.mem
                   trace := .write (busAddr x.addr n) n (truncateTo n (transferReg user rd s)) :: s.trace } := by
  have hw := writeBack_spec wb rn x.ea (s.store x.addr n (transferReg user rd s))
  refine ⟨_, whenAdmitted_of_admitted _ h, hw.1, ?_, ?_⟩
  · rw [hw.2.mem]
    exact stored_store _ _ _ _
  · exact hw.2.trans (by rw [hw.2]; rfl)

end Sys2Proof.Machine
end

