-- ==== Sys2Proof/Laws/Block.lean ====
section
/-! SUPPORT. What the loops of the block transfers do. -/

namespace Sys2Proof.Machine

/-- Writes in order, and then more writes. -/
theorem RegistersAfter.trans {ws ws' : List RegWrite} {b : Bool} {s t u : State} (h : RegistersAfter ws b s t)
    (h' : RegistersAfter ws' b t u) : RegistersAfter (ws ++ ws') b s u :=
  ⟨fun p => by rw [h'.1, h.1, valueAfter_append], by rw [h'.2, h.2, pcAfter_append]⟩

/-- The address of word `k` of a block. -/
def blockAddr (start : Word) (k : Nat) : Word := start + BitVec.ofNat 32 (4 * k)

theorem blockAddr_succ (start : Word) (k : Nat) : blockAddr start k + 4#32 = blockAddr start (k + 1) := by
  simp only [blockAddr, BitVec.add_assoc]
  congr 1
  apply BitVec.eq_of_toNat_eq
  simp
  omega

@[simp] theorem blockAddr_zero (start : Word) : blockAddr start 0 = start := by simp [blockAddr]

/-- The loads of registers, from word `k` of a block on. -/
theorem loadRegs_spec (user : Bool) (rs : List Reg) (start : Word) (k : Nat) (s : State) :
    RegistersAfter ((rs.zipIdx k).map fun x =>
        (physReg (if user then modeUsr else s.cpsr.m) x.1, s.mem.read32 (busAddr (blockAddr start x.2) .word)))
      s.cpsr.t s (loadRegs user rs (blockAddr start k) s) ∧
    loadRegs user rs (blockAddr start k) s =
      { s with regs := (loadRegs user rs (blockAddr start k) s).regs
               pc := (loadRegs user rs (blockAddr start k) s).pc
               trace := ((List.range' k rs.length).map fun j => Event.read (busAddr (blockAddr start j) .word) .word).reverse
                 ++ s.trace } := by
  induction rs generalizing k s with
  | nil => exact ⟨registersAfter_nil rfl rfl, rfl⟩
  | cons r rs ih =>
    have hw : SameButRegs (s.load .word (blockAddr start k))
        (setTransferReg user r (s.blockWord (blockAddr start k)) (s.load .word (blockAddr start k))) := by
      rw [setTransferReg_eq]
      exact (SameButRegs.refl _).writeAt _ _
    have h := ih (k + 1)
      (setTransferReg user r (s.blockWord (blockAddr start k)) (s.load .word (blockAddr start k)))
    rw [hw.cpsr, hw.mem, ← blockAddr_succ] at h
    refine ⟨?_, h.2.trans ?_⟩
    · rw [List.zipIdx_cons, List.map_cons]
      refine RegistersAfter.trans (ws := [_]) ?_ h.1
      rw [setTransferReg_eq]
      exact registersAfter_writeAt (ws := []) (t := s.load .word _) _ _ (registersAfter_nil rfl rfl)
    · simp [setTransferReg_eq, List.range'_succ, loadRegs, loadEvent]

/-! ### Stores -/

/-- The words of a block do not overlap. -/
theorem blockAddr_disjoint {start : Word} {j k a b : Nat} (hj : j < 64) (hk : k < 64) (ha : a < 4) (hb : b < 4)
    (h : busAddr (blockAddr start j) .word + BitVec.ofNat 32 a = busAddr (blockAddr start k) .word + BitVec.ofNat 32 b) :
    j = k := by
  have := congrArg BitVec.toNat h
  simp only [busAddr, blockAddr, BitVec.toNat_add, BitVec.toNat_ofNat, toNat_and_mask2] at this
  have := start.isLt
  omega

theorem storedWords_nil (m : Memory) : StoredWords [] m m := ⟨by simp, by simp⟩

/-- A word stored before other words that do not overlap it. -/
theorem storedWords_cons {a v : Word} {ws : List (Word × Word)} {m m' m'' : Memory} (h : Stored a .word v m m')
    (h' : StoredWords ws m' m'')
    (hd : ∀ w ∈ ws, ∀ i < 4, ∀ j < 4, a + BitVec.ofNat 32 i ≠ w.1 + BitVec.ofNat 32 j) :
    StoredWords ((a, v) :: ws) m m'' := by
  refine ⟨fun w hw k hk => ?_, fun x hx => ?_⟩
  · rcases List.mem_cons.1 hw with rfl | hw
    · rw [h'.2 _ fun w hw j hj => hd w hw k hk j hj]
      exact h.1 k hk
    · exact h'.1 w hw k hk
  · rw [h'.2 x fun w hw j hj => hx w (List.mem_cons_of_mem _ hw) j hj]
    exact h.2 x fun k hk => hx (a, v) (List.mem_cons_self ..) k hk

theorem storedReg_store (user : Bool) (x15 : Word) (r : Reg) (s : State) (a v : Word) (n : Width) :
    storedReg user x15 r (s.store a n v) = storedReg user x15 r s := by
  cases user <;> rfl

/-- The stores of registers, from word `k` of a block on: they change memory alone. -/
theorem storeRegs_spec (user : Bool) (x15 : Word) (rs : List Reg) (start : Word) (k : Nat) (s : State)
    (hk : k + rs.length ≤ 64) :
    let words := (rs.zipIdx k).map fun x => (busAddr (blockAddr start x.2) .word, storedReg user x15 x.1 s)
    StoredWords words s.mem (storeRegs user x15 rs (blockAddr start k) s).mem ∧
      storeRegs user x15 rs (blockAddr start k) s =
        { s with mem := (storeRegs user x15 rs (blockAddr start k) s).mem
                 trace := blockWrites words ++ s.trace } := by
  induction rs generalizing k s with
  | nil => exact ⟨storedWords_nil _, rfl⟩
  | cons r rs ih =>
    have h := ih (k + 1) (s.store (blockAddr start k) .word (storedReg user x15 r s))
      (by simp only [List.length_cons] at hk; omega)
    simp only [storedReg_store] at h
    rw [← blockAddr_succ] at h
    refine ⟨?_, h.2.trans ?_⟩
    · rw [List.zipIdx_cons, List.map_cons]
      refine storedWords_cons (stored_store _ _ _ _) h.1 fun w hw i hi j hj heq => ?_
      obtain ⟨x, hx, rfl⟩ := List.mem_map.1 hw
      have hx := List.mem_zipIdx hx
      simp only [List.length_cons] at hk
      have := blockAddr_disjoint (by omega) (by omega) hi hj heq
      omega
    · simp [storeRegs, blockWrites, truncateTo]

/-- The value a block transfer stores, by the storage its register names. -/
theorem storedReg_eq (user : Bool) (x15 : Word) (r : Reg) (s : State) :
    storedReg user x15 r s =
      match physReg (if user then modeUsr else s.cpsr.m) r with
      | none => x15
      | some q => s.regs.get q := by
  by_cases h : r = pcReg
  · rw [storedReg, if_pos h, h, physReg_pcReg]
  · rw [storedReg, if_neg h, transferReg_eq]
    cases hp : physReg (if user then modeUsr else s.cpsr.m) r with
    | none => exact absurd (physReg_eq_none.1 hp) h
    | some q => rfl

/-- A store multiple: the words, and the write-back. -/
theorem storeMultiple_spec (user wb : Bool) (rn : Reg) (start final : Word) (rs : List Reg) (s : State)
    (hl : rs.length ≤ 64) :
    let writes : List RegWrite := if wb then [(s.phys rn, final)] else []
    let words := blockStores (if user then modeUsr else s.cpsr.m) rs start writes s
    let t := storeMultiple user wb rn start final rs s
    RegistersAfter writes s.cpsr.t s t ∧ StoredWords words s.mem t.mem ∧
      t = { s with regs := t.regs, pc := t.pc, mem := t.mem, trace := blockWrites words ++ s.trace } := by
  intro writes words
  cases rs with
  | nil =>
    have hw := writeBack_spec wb rn final s
    refine ⟨hw.1, ?_, ?_⟩
    · show StoredWords [] s.mem (writeBack wb rn final s).mem
      rw [hw.2.mem]
      exact storedWords_nil _
    · show writeBack wb rn final s =
        { s with regs := (writeBack wb rn final s).regs
                 pc := (writeBack wb rn final s).pc
                 mem := (writeBack wb rn final s).mem }
      rw [hw.2.mem]
      exact hw.2
  | cons r rest =>
    let s1 := s.store start .word (storedReg user s.r15 r s)
    have hw : RegistersAfter writes s.cpsr.t s (writeBack wb rn final s1) ∧ SameButRegs s1 (writeBack wb rn final s1) :=
      writeBack_spec wb rn final s1
    have h := storeRegs_spec user s.r15 rest start 1 (writeBack wb rn final s1)
      (by simp only [List.length_cons] at hl; omega)
    rw [← blockAddr_succ, blockAddr_zero, hw.2.mem] at h
    have hwords : words = (busAddr start .word, storedReg user s.r15 r s) ::
        (rest.zipIdx 1).map fun x =>
          (busAddr (blockAddr start x.2) .word, storedReg user s.r15 x.1 (writeBack wb rn final s1)) := by
      simp only [words, blockStores, List.zipIdx_cons, List.map_cons, List.cons.injEq, storedReg_eq]
      refine ⟨?_, List.map_congr_left fun x hx => ?_⟩
      · cases physReg (if user then modeUsr else s.cpsr.m) r <;> simp [valueAfter]
      · have : x.2 ≠ 0 := by have := List.mem_zipIdx hx; omega
        rw [hw.2.cpsr, show s1.cpsr = s.cpsr from rfl]
        simp only [this, if_false, blockAddr]
        cases physReg (if user then modeUsr else s.cpsr.m) x.1 with
        | none => rfl
        | some q =>
          show (_, valueAfter writes q (s.regs.get q)) = (_, (writeBack wb rn final s1).regs.get q)
          rw [hw.1.1 q]
    refine ⟨?_, ?_, ?_⟩
    · exact ⟨fun p => (congrArg (fun t : State => t.regs.get p) h.2).trans (hw.1.1 p),
        (congrArg State.pc h.2).trans hw.1.2⟩
    · rw [hwords]
      refine storedWords_cons (stored_store _ _ _ _) h.1 fun w hw' i hi j hj heq => ?_
      obtain ⟨x, hx, rfl⟩ := List.mem_map.1 hw'
      have hx := List.mem_zipIdx hx
      simp only [List.length_cons] at hl
      have := blockAddr_disjoint (start := start) (j := 0) (k := x.2) (by omega) (by omega) hi hj (by simpa using heq)
      omega
    · rw [hwords]
      have e := h.2
      refine State.eq_of_fields rfl rfl ((congrArg State.cpsr e).trans hw.2.cpsr)
        ((congrArg State.spsr e).trans hw.2.spsr) rfl ((congrArg State.params e).trans hw.2.params)
        ((congrArg State.trace e).trans ?_) ((congrArg State.schedule e).trans hw.2.schedule)
        ((congrArg State.resets e).trans hw.2.resets)
      simp [blockWrites, hw.2.trace, s1, truncateTo]

/-! ### Register lists -/

theorem length_regsOf (list : BitVec 16) : (regsOf list).length ≤ 16 := List.length_filter_le _ _

/-- The registers of a list: those below r15, and r15 last if it is in the list. -/
theorem regsOf_eq (list : BitVec 16) :
    regsOf list = regsOf (list &&& 0x7FFF#16) ++ (if list.getLsbD 15 then [15#4] else []) := by
  have hall : allRegs = [0, 1, 2, 3, 4, 5, 6, 7, 8, 9, 10, 11, 12, 13, 14] ++ [15] := rfl
  unfold regsOf
  rw [hall, List.filter_append, List.filter_append]
  have h15 : ([15] : List Reg).filter (fun r => (list &&& 0x7FFF#16).getLsbD r.toNat) = [] := by simp
  rw [h15, List.append_nil]
  congr 1
  · refine List.filter_congr fun r hr => ?_
    fin_cases hr <;> simp
  · by_cases h : list.getLsbD 15 = true <;> simp_all

/-! ### Load multiple -/

/-- The length of a block's reads, one by one. -/
theorem blockReads_succ (n : Nat) (start : Word) :
    blockReads (n + 1) start = .read (busAddr (blockAddr start n) .word) .word :: blockReads n start := by
  simp [blockReads, List.range_succ, blockAddr]

/-- The last load of a block. -/
theorem blockLoads_append (m : BitVec 5) (rs : List Reg) (r : Reg) (start : Word) (mem : Memory) :
    blockLoads m (rs ++ [r]) start mem =
      blockLoads m rs start mem ++ [(physReg m r, mem.read32 (busAddr (blockAddr start rs.length) .word))] := by
  simp [blockLoads, List.zipIdx_append, blockAddr]

/-- The loads of registers of a whole block. -/
theorem loadRegs_block_spec (user : Bool) (rs : List Reg) (start : Word) (s : State) :
    let t := loadRegs user rs start s
    RegistersAfter (blockLoads (if user then modeUsr else s.cpsr.m) rs start s.mem) s.cpsr.t s t ∧
      t = { s with regs := t.regs, pc := t.pc, trace := blockReads rs.length start ++ s.trace } := by
  have h := loadRegs_spec user rs start 0 s
  rw [blockAddr_zero] at h
  simpa [blockLoads, blockReads, blockAddr, List.range_eq_range'] using h

/-- The load of r15: the status register, then the branch. -/
theorem loadPc_spec (reload : Bool) (a : Word) (s : State) :
    let p := if reload then s.readSpsr else s.cpsr
    RegistersAfter [(none, s.mem.read32 (busAddr a .word))] p.t s (loadPc reload a s) ∧
      loadPc reload a s =
        { s with pc := (loadPc reload a s).pc
                 cpsr := p
                 trace := .read (busAddr a .word) .word :: s.trace } := by
  cases reload
  · exact ⟨⟨fun _ => rfl, rfl⟩, rfl⟩
  · have hr : ∀ u : State, u.reloadCpsr = u.withCpsr u.readSpsr := by
      intro u
      unfold State.reloadCpsr State.readSpsr
      cases spsrBank u.cpsr.m <;> rfl
    simp only [loadPc, if_true, returnFromException, hr]
    exact ⟨⟨fun _ => rfl, rfl⟩, rfl⟩

/-- A branch after other writes: the instruction set it is masked for is that of the branch. -/
theorem RegistersAfter.branch {ws : List RegWrite} {v : Word} {b b' : Bool} {s t u : State}
    (h : RegistersAfter ws b s t) (h' : RegistersAfter [(none, v)] b' t u) :
    RegistersAfter (ws ++ [(none, v)]) b' s u :=
  ⟨fun p => by rw [h'.1, h.1, valueAfter_append], by rw [h'.2, pcAfter_append]; rfl⟩

/-- A load multiple: the write-back, the registers, the status register, the branch. -/
theorem loadMultiple_spec (ub wb : Bool) (rn : Reg) (start final : Word) (list : BitVec 16) (s : State) :
    let pcInList := list.getLsbD 15
    let m := if ub && !pcInList then modeUsr else s.cpsr.m
    let p := if ub && pcInList then s.readSpsr else s.cpsr
    let t := loadMultiple ub wb rn start final list s
    RegistersAfter ((if wb then [(s.phys rn, final)] else []) ++ blockLoads m (regsOf list) start s.mem) p.t s t ∧
      t = { s with regs := t.regs
                   pc := t.pc
                   cpsr := p
                   trace := blockReads (regsOf list).length start ++ s.trace } := by
  intro pcInList m p t
  have hw := writeBack_spec wb rn final s
  have hl := loadRegs_block_spec (ub && !pcInList) (regsOf (list &&& 0x7FFF#16)) start (writeBack wb rn final s)
  rw [hw.2.cpsr, hw.2.mem] at hl
  have hr := hw.1.trans hl.1
  have e := hl.2
  have hregs := regsOf_eq list
  cases hp : pcInList
  · have hp' : list.getLsbD 15 = false := hp
    have ht : t = loadRegs (ub && !false) (regsOf list) start (writeBack wb rn final s) := by
      simp only [t, loadMultiple, hp', hregs, Bool.false_eq_true, if_false, List.append_nil]
    have hm : m = if (ub && !false) = true then modeUsr else s.cpsr.m := by simp only [m, hp]
    have hpsr : p = s.cpsr := by simp only [p, hp, Bool.and_false, Bool.false_eq_true, if_false]
    simp only [hp', Bool.false_eq_true, if_false, List.append_nil] at hregs
    rw [hp, ← hregs] at hr e
    rw [hm, hpsr, ht]
    refine ⟨hr, State.eq_of_fields rfl rfl (congrArg State.cpsr e :)
      ((congrArg State.spsr e :).trans hw.2.spsr) (congrArg State.mem e :)
      ((congrArg State.params e :).trans hw.2.params) ((congrArg State.trace e :).trans ?_)
      ((congrArg State.schedule e :).trans hw.2.schedule) ((congrArg State.resets e :).trans hw.2.resets)⟩
    rw [hw.2.trace]
  · have hp' : list.getLsbD 15 = true := hp
    rw [hp, Bool.not_true, Bool.and_false] at hr e
    generalize hu : loadRegs false (regsOf (list &&& 0x7FFF#16)) start (writeBack wb rn final s) = u at hr e
    have ht : t = loadPc ub (blockAddr start (regsOf (list &&& 0x7FFF#16)).length) u := by
      simp only [t, loadMultiple, hp', if_true, Bool.not_true, Bool.and_false, hu]
      rfl
    have hm : m = s.cpsr.m := by simp [m, hp]
    have hspsr : u.readSpsr = s.readSpsr := by
      rw [State.readSpsr, (congrArg State.cpsr e :), (congrArg State.spsr e :), hw.2.spsr]
      rfl
    have hl' := loadPc_spec ub (blockAddr start (regsOf (list &&& 0x7FFF#16)).length) u
    have hpsr : p = if ub then u.readSpsr else u.cpsr := by
      simp only [p, hp, Bool.and_true, hspsr, (congrArg State.cpsr e :)]
    simp only [hp', if_true] at hregs
    have e' := hl'.2
    rw [ht, hpsr, hm, hregs, blockLoads_append, ← List.append_assoc, List.length_append, List.length_singleton,
      blockReads_succ, show physReg s.cpsr.m 15#4 = none from physReg_pcReg _]
    have hmem : u.mem = s.mem := (congrArg State.mem e :)
    rw [hmem] at hl'
    refine ⟨hr.branch hl'.1, State.eq_of_fields rfl rfl (congrArg State.cpsr e' :)
      (((congrArg State.spsr e' :).trans (congrArg State.spsr e :)).trans hw.2.spsr)
      ((congrArg State.mem e' :).trans hmem)
      (((congrArg State.params e' :).trans (congrArg State.params e :)).trans hw.2.params)
      ((congrArg State.trace e' :).trans ?_)
      (((congrArg State.schedule e' :).trans (congrArg State.schedule e :)).trans hw.2.schedule)
      (((congrArg State.resets e' :).trans (congrArg State.resets e :)).trans hw.2.resets)⟩
    simp [(congrArg State.trace e :), hw.2.trace]

end Sys2Proof.Machine
end

