-- ==== Sys2Proof/Laws/Fields.lean ====
section
/-! SUPPORT. The small lemmas of the field helpers of Decode.lean: a field or a bit of an encoded word, read through
the `or` of placed fields, is the field that was placed there. -/

namespace Sys2Proof.Laws

open Sys2Proof

theorem field_or {n : Nat} (a b : BitVec n) (lo len : Nat) :
    field (a ||| b) lo len = field a lo len ||| field b lo len := by
  ext i hi
  simp [field]

theorem bit_or {n : Nat} (a b : BitVec n) (i : Nat) : bit (a ||| b) i = (bit a i || bit b i) := by
  simp [bit]

theorem bit_place {n len : Nat} (lo : Nat) (v : BitVec len) (i : Nat) :
    bit (place lo v : BitVec n) i = (decide (i < n) && decide (lo ≤ i) && v.getLsbD (i - lo)) := by
  simp only [bit, place, BitVec.getLsbD_shiftLeft, BitVec.getLsbD_setWidth]
  by_cases h : i < n <;> by_cases h2 : i < lo <;> simp [h, h2] <;> try omega
  have h3 : i - lo < n := by omega
  have h4 : lo ≤ i := by omega
  simp [h3, h4]

theorem field_place_same {n len : Nat} (lo : Nat) (v : BitVec len) (h : lo + len ≤ n) :
    field (place lo v : BitVec n) lo len = v := by
  apply BitVec.eq_of_getLsbD_eq
  intro i hi
  have hb := bit_place (n := n) lo v (lo + i)
  simp only [bit] at hb
  simp only [field, BitVec.getLsbD_extractLsb', hb]
  simp [hi]
  omega

theorem field_place_off {n len k : Nat} (lo lo' : Nat) (v : BitVec k) (h : lo + len ≤ lo' ∨ lo' + k ≤ lo) :
    field (place lo' v : BitVec n) lo len = 0#len := by
  apply BitVec.eq_of_getLsbD_eq
  intro i hi
  have hb := bit_place (n := n) lo' v (lo + i)
  simp only [bit] at hb
  simp only [field, BitVec.getLsbD_extractLsb', hb]
  rcases h with h | h
  · have h2 : ¬ lo' ≤ lo + i := by omega
    simp [h2]
  · rw [BitVec.getLsbD_of_ge v (lo + i - lo') (by omega)]
    simp

/-- A field of a placed field that lies inside it. -/
theorem field_place_inside {n len k : Nat} (lo lo' : Nat) (v : BitVec k) (h : lo' ≤ lo) (h2 : lo + len ≤ n) :
    field (place lo' v : BitVec n) lo len = field v (lo - lo') len := by
  apply BitVec.eq_of_getLsbD_eq
  intro i hi
  have hb := bit_place (n := n) lo' v (lo + i)
  simp only [bit] at hb
  simp only [field, BitVec.getLsbD_extractLsb', hb]
  have h3 : lo + i - lo' = lo - lo' + i := by omega
  have h4 : lo' ≤ lo + i := by omega
  have h5 : lo + i < n := by omega
  simp [h3, h4, h5]

theorem field_literal {n : Nat} (x lo len : Nat) :
    field (BitVec.ofNat n x) lo len = BitVec.ofNat len ((x % 2 ^ n) >>> lo) := by
  apply BitVec.eq_of_toNat_eq
  simp [field, BitVec.extractLsb'_toNat]

theorem bit_literal {n : Nat} (x i : Nat) :
    bit (BitVec.ofNat n x) i = (decide (i < n) && decide (x / 2 ^ i % 2 = 1)) := by
  simp [bit, BitVec.getLsbD_ofNat, Nat.testBit_eq_decide_div_mod_eq]

theorem getLsbD_ofBool_zero (b : Bool) : (BitVec.ofBool b).getLsbD 0 = b := by
  cases b <;> rfl

theorem getLsbD_ofBool_succ (b : Bool) (i : Nat) : (BitVec.ofBool b).getLsbD (i + 1) = false := by
  rw [BitVec.getLsbD_of_ge _ _ (by omega)]

@[simp] theorem shiftType_ofBits_toBits (t : ShiftType) : ShiftType.ofBits t.toBits = t := by
  cases t <;> rfl

@[simp] theorem shiftType_toBits_ofBits (b : BitVec 2) : (ShiftType.ofBits b).toBits = b := by
  revert b
  decide

end Sys2Proof.Laws
end

