-- ==== Sys2Proof/Laws/PerInstr.lean ====
section
/-! SUPPORT. One law per instruction: the word that encodes a well-formed instruction lies in its row of the opcode
table (R116). No operand of an instruction touches a bit that its row fixes. -/

namespace Sys2Proof.Laws

open Sys2Proof

theorem or_and {n : Nat} (a b m : BitVec n) : (a ||| b) &&& m = a &&& m ||| b &&& m := by
  ext i hi
  simp only [BitVec.getElem_and, BitVec.getElem_or, Bool.and_or_distrib_right]

/-- A placed field is invisible under a mask that is 0 over the field. -/
theorem place_and {n len : Nat} (lo : Nat) (v : BitVec len) (m : BitVec n) (h : m.extractLsb' lo len = 0#len) :
    (place lo v : BitVec n) &&& m = 0#n := by
  apply BitVec.eq_of_getLsbD_eq
  intro i hi
  have hb := bit_place (n := n) lo v i
  simp only [bit] at hb
  simp only [BitVec.getLsbD_and, hb]
  by_cases h1 : lo ≤ i
  · by_cases h2 : i - lo < len
    · have h3 : (m.extractLsb' lo len).getLsbD (i - lo) = false := by simp [h]
      rw [BitVec.getLsbD_extractLsb'] at h3
      have h4 : lo + (i - lo) = i := by omega
      simp [h2, h4] at h3
      simp [h3]
    · rw [BitVec.getLsbD_of_ge v _ (by omega)]
      simp
  · simp [h1]

/-- A placed field is invisible under a mask whose bits are all among those of `k`, when `k` is 0 over the field. -/
theorem place_under {n len : Nat} {m k : BitVec n} (hm : m &&& k = m) (lo : Nat) (v : BitVec len)
    (h : k.extractLsb' lo len = 0#len) : (place lo v : BitVec n) &&& m = 0#n := by
  rw [← hm, BitVec.and_comm m k, ← BitVec.and_assoc, place_and lo v k h, BitVec.zero_and]

theorem placeBit_under {n : Nat} {m k : BitVec n} (hm : m &&& k = m) (lo : Nat) (b : Bool)
    (h : k.extractLsb' lo 1 = 0#1) : (placeBit lo b : BitVec n) &&& m = 0#n := place_under hm lo _ h

theorem placeBit_false {n : Nat} (lo : Nat) : (placeBit lo false : BitVec n) = 0#n := by
  ext i hi
  simp [placeBit, place]

/-- A word that matches a row matches every row that fixes fewer bits, the same way. -/
theorem matchesRow_weaken {n : Nat} {w m p : BitVec n} (m' p' : BitVec n) (h : matchesRow w m p = true)
    (hm : m &&& m' = m') (hp : p &&& m' = p') : w &&& m' = p' := by
  have hw : w &&& m = p := by simpa [matchesRow] using h
  rw [← hp, ← hw, BitVec.and_assoc, hm]

/-! ### The layouts: under a mask of bits outside its fields, an encoded word is its match value -/

theorem encA1_row (m k : BitVec 32) (hm : k &&& 0x0FE00000#32 = k) (c : CondCode) (sf : Bool) (rn rd : Reg) (rot : BitVec 4) (imm : BitVec 8) :
    encA1 m c sf rn rd rot imm &&& k = m &&& k := by
  simp (disch := decide) only [encA1, or_and, place_under hm, placeBit_under hm, BitVec.or_zero]

theorem encA1_row_off (m k : BitVec 32) (hm : k &&& 0x0FF00000#32 = k) (c : CondCode) (rn rd : Reg) (rot : BitVec 4) (imm : BitVec 8) :
    encA1 m c false rn rd rot imm &&& k = m &&& k := by
  simp (disch := decide) only [encA1, or_and, place_under hm, placeBit_false, BitVec.or_zero]

theorem encA2_row (m k : BitVec 32) (hm : k &&& 0x0FE00010#32 = k) (c : CondCode) (sf : Bool) (rn rd : Reg) (amt : BitVec 5) (ty : ShiftType) (rm : Reg) :
    encA2 m c sf rn rd amt ty rm &&& k = m &&& k := by
  simp (disch := decide) only [encA2, or_and, place_under hm, placeBit_under hm, BitVec.or_zero]

theorem encA2_row_off (m k : BitVec 32) (hm : k &&& 0x0FF00010#32 = k) (c : CondCode) (rn rd : Reg) (amt : BitVec 5) (ty : ShiftType) (rm : Reg) :
    encA2 m c false rn rd amt ty rm &&& k = m &&& k := by
  simp (disch := decide) only [encA2, or_and, place_under hm, placeBit_false, BitVec.or_zero]

theorem encA3_row (m k : BitVec 32) (hm : k &&& 0x0FE00090#32 = k) (c : CondCode) (sf : Bool) (rn rd rs : Reg) (ty : ShiftType) (rm : Reg) :
    encA3 m c sf rn rd rs ty rm &&& k = m &&& k := by
  simp (disch := decide) only [encA3, or_and, place_under hm, placeBit_under hm, BitVec.or_zero]

theorem encA3_row_off (m k : BitVec 32) (hm : k &&& 0x0FF00090#32 = k) (c : CondCode) (rn rd rs : Reg) (ty : ShiftType) (rm : Reg) :
    encA3 m c false rn rd rs ty rm &&& k = m &&& k := by
  simp (disch := decide) only [encA3, or_and, place_under hm, placeBit_false, BitVec.or_zero]

theorem encA4_row (m k : BitVec 32) (hm : k &&& 0x0FBF0FFF#32 = k) (c : CondCode) (p : Bool) (rd : Reg) :
    encA4 m c p rd &&& k = m &&& k := by
  simp (disch := decide) only [encA4, or_and, place_under hm, placeBit_under hm, BitVec.or_zero]

theorem encA5_row (m k : BitVec 32) (hm : k &&& 0x0FB0FFF0#32 = k) (c : CondCode) (p ff : Bool) (ign : BitVec 2) (fc : Bool) (rm : Reg) :
    encA5 m c p ff ign fc rm &&& k = m &&& k := by
  simp (disch := decide) only [encA5, or_and, place_under hm, placeBit_under hm, BitVec.or_zero]

theorem encA6_row (m k : BitVec 32) (hm : k &&& 0x0FB0F000#32 = k) (c : CondCode) (p ff : Bool) (ign : BitVec 2) (fc : Bool) (rot : BitVec 4) (imm : BitVec 8) :
    encA6 m c p ff ign fc rot imm &&& k = m &&& k := by
  simp (disch := decide) only [encA6, or_and, place_under hm, placeBit_under hm, BitVec.or_zero]

theorem encA7_row (m k : BitVec 32) (hm : k &&& 0x0FFFFFF0#32 = k) (c : CondCode) (rm : Reg) :
    encA7 m c rm &&& k = m &&& k := by
  simp (disch := decide) only [encA7, or_and, place_under hm, BitVec.or_zero]

theorem encA8_row (m k : BitVec 32) (hm : k &&& 0x0FE000F0#32 = k) (c : CondCode) (sf : Bool) (ra rb : Reg) (rs : BitVec 4) (rm : Reg) :
    encA8 m c sf ra rb rs rm &&& k = m &&& k := by
  simp (disch := decide) only [encA8, or_and, place_under hm, placeBit_under hm, BitVec.or_zero]

theorem encA8_row_off (m k : BitVec 32) (hm : k &&& 0x0FF000F0#32 = k) (c : CondCode) (ra rb : Reg) (rs : BitVec 4) (rm : Reg) :
    encA8 m c false ra rb rs rm &&& k = m &&& k := by
  simp (disch := decide) only [encA8, or_and, place_under hm, placeBit_false, BitVec.or_zero]

theorem encA11_row (m k : BitVec 32) (hm : k &&& 0x0F5000F0#32 = k) (c : CondCode) (u w : Bool) (rn rd : Reg) (hi lo : BitVec 4) :
    encA11 m c u w rn rd hi lo &&& k = m &&& k := by
  simp (disch := decide) only [encA11, or_and, place_under hm, placeBit_under hm, BitVec.or_zero]

theorem encA11_row_off (m k : BitVec 32) (hm : k &&& 0x0F7000F0#32 = k) (c : CondCode) (u : Bool) (rn rd : Reg) (hi lo : BitVec 4) :
    encA11 m c u false rn rd hi lo &&& k = m &&& k := by
  simp (disch := decide) only [encA11, or_and, place_under hm, placeBit_under hm, placeBit_false, BitVec.or_zero]

theorem encA13i_row (m k : BitVec 32) (hm : k &&& 0x0F500000#32 = k) (c : CondCode) (u w : Bool) (rn rd : Reg) (off : BitVec 12) :
    encA13i m c u w rn rd off &&& k = m &&& k := by
  simp (disch := decide) only [encA13i, or_and, place_under hm, placeBit_under hm, BitVec.or_zero]

theorem encA13i_row_off (m k : BitVec 32) (hm : k &&& 0x0F700000#32 = k) (c : CondCode) (u : Bool) (rn rd : Reg) (off : BitVec 12) :
    encA13i m c u false rn rd off &&& k = m &&& k := by
  simp (disch := decide) only [encA13i, or_and, place_under hm, placeBit_under hm, placeBit_false, BitVec.or_zero]

theorem encA13r_row (m k : BitVec 32) (hm : k &&& 0x0F500010#32 = k) (c : CondCode) (u w : Bool) (rn rd : Reg) (amt : BitVec 5) (ty : ShiftType) (rm : Reg) :
    encA13r m c u w rn rd amt ty rm &&& k = m &&& k := by
  simp (disch := decide) only [encA13r, or_and, place_under hm, placeBit_under hm, BitVec.or_zero]

theorem encA13r_row_off (m k : BitVec 32) (hm : k &&& 0x0F700010#32 = k) (c : CondCode) (u : Bool) (rn rd : Reg) (amt : BitVec 5) (ty : ShiftType) (rm : Reg) :
    encA13r m c u false rn rd amt ty rm &&& k = m &&& k := by
  simp (disch := decide) only [encA13r, or_and, place_under hm, placeBit_under hm, placeBit_false, BitVec.or_zero]

theorem encA14_row (m k : BitVec 32) (hm : k &&& 0x0E100000#32 = k) (c : CondCode) (p u ub w : Bool) (rn : Reg) (list : BitVec 16) :
    encA14 m c p u ub w rn list &&& k = m &&& k := by
  simp (disch := decide) only [encA14, or_and, place_under hm, placeBit_under hm, BitVec.or_zero]

theorem encA15_row (m k : BitVec 32) (hm : k &&& 0x0F000000#32 = k) (c : CondCode) (v : BitVec 24) :
    encA15 m c v &&& k = m &&& k := by
  simp (disch := decide) only [encA15, or_and, place_under hm, BitVec.or_zero]

theorem encT1_row (m k : BitVec 16) (hm : k &&& 0xF800#16 = k) (v : BitVec 5) (rs rd : LowReg) :
    encT1 m v rs rd &&& k = m &&& k := by
  simp (disch := decide) only [encT1, or_and, place_under hm, BitVec.or_zero]

theorem encT2_row (m k : BitVec 16) (hm : k &&& 0xFE00#16 = k) (v : BitVec 3) (rs rd : LowReg) :
    encT2 m v rs rd &&& k = m &&& k := by
  simp (disch := decide) only [encT2, or_and, place_under hm, BitVec.or_zero]

theorem encT3_row (m k : BitVec 16) (hm : k &&& 0xF800#16 = k) (rd : LowReg) (v : BitVec 8) :
    encT3 m rd v &&& k = m &&& k := by
  simp (disch := decide) only [encT3, or_and, place_under hm, BitVec.or_zero]

theorem encT4_row (m k : BitVec 16) (hm : k &&& 0xFFC0#16 = k) (rs rd : LowReg) :
    encT4 m rs rd &&& k = m &&& k := by
  simp (disch := decide) only [encT4, or_and, place_under hm, BitVec.or_zero]

theorem encT5_row (m k : BitVec 16) (hm : k &&& 0xFF00#16 = k) (h1 h2 : Bool) (rs rd : LowReg) :
    encT5 m h1 h2 rs rd &&& k = m &&& k := by
  simp (disch := decide) only [encT5, or_and, place_under hm, placeBit_under hm, BitVec.or_zero]

theorem encT13_row (m k : BitVec 16) (hm : k &&& 0xFF80#16 = k) (v : BitVec 7) :
    encT13 m v &&& k = m &&& k := by
  simp (disch := decide) only [encT13, or_and, place_under hm, BitVec.or_zero]

theorem encT14_row (m k : BitVec 16) (hm : k &&& 0xFE00#16 = k) (r : Bool) (v : BitVec 8) :
    encT14 m r v &&& k = m &&& k := by
  simp (disch := decide) only [encT14, or_and, place_under hm, placeBit_under hm, BitVec.or_zero]

theorem encT14_row_off (m k : BitVec 16) (hm : k &&& 0xFF00#16 = k) (v : BitVec 8) :
    encT14 m false v &&& k = m &&& k := by
  simp (disch := decide) only [encT14, or_and, place_under hm, placeBit_false, BitVec.or_zero]

theorem encT16_row (m k : BitVec 16) (hm : k &&& 0xFF00#16 = k) (v : BitVec 8) :
    encT16 m v &&& k = m &&& k := by
  simp (disch := decide) only [encT16, or_and, place_under hm, BitVec.or_zero]

theorem encT18_row (m k : BitVec 16) (hm : k &&& 0xF800#16 = k) (v : BitVec 11) :
    encT18 m v &&& k = m &&& k := by
  simp (disch := decide) only [encT18, or_and, place_under hm, BitVec.or_zero]

namespace EncodedInRow

/-- The encoded word under the mask of the instruction's row is the row's pattern. -/
def Statement (i : Instr) : Prop :=
  i.wellFormed = true →
    match encode i with
    | .arm w => w &&& (tableRow i).2 = (tableRow i).1
    | .thumb h => h &&& (tableRow i).2.setWidth 16 = (tableRow i).1.setWidth 16

theorem of_thumb {i : Instr} {h m p : BitVec 16} (p' m' : Word) (he : encode i = .thumb h) (ht : tableRow i = (p', m'))
    (hp : p'.setWidth 16 = p) (hm : m'.setWidth 16 = m) (hw : h &&& m = p) : Statement i := by
  intro _
  simp only [he, ht, hp, hm, hw]

theorem andImm (c : CondCode) (sf : Bool) (rn rd : Reg) (rot : BitVec 4) (imm : BitVec 8) : Statement (.andImm c sf rn rd rot imm) :=
  fun _ => encA1_row 0x02000000#32 0x0FE00000#32 rfl c sf rn rd rot imm

theorem andReg (c : CondCode) (sf : Bool) (rn rd : Reg) (amt : BitVec 5) (ty : ShiftType) (rm : Reg) : Statement (.andReg c sf rn rd amt ty rm) :=
  fun _ => encA2_row 0x00000000#32 0x0FE00010#32 rfl c sf rn rd amt ty rm

theorem andRsr (c : CondCode) (sf : Bool) (rn rd rs : Reg) (ty : ShiftType) (rm : Reg) : Statement (.andRsr c sf rn rd rs ty rm) :=
  fun _ => encA3_row 0x00000010#32 0x0FE00090#32 rfl c sf rn rd rs ty rm

theorem eorImm (c : CondCode) (sf : Bool) (rn rd : Reg) (rot : BitVec 4) (imm : BitVec 8) : Statement (.eorImm c sf rn rd rot imm) :=
  fun _ => encA1_row 0x02200000#32 0x0FE00000#32 rfl c sf rn rd rot imm

theorem eorReg (c : CondCode) (sf : Bool) (rn rd : Reg) (amt : BitVec 5) (ty : ShiftType) (rm : Reg) : Statement (.eorReg c sf rn rd amt ty rm) :=
  fun _ => encA2_row 0x00200000#32 0x0FE00010#32 rfl c sf rn rd amt ty rm

theorem eorRsr (c : CondCode) (sf : Bool) (rn rd rs : Reg) (ty : ShiftType) (rm : Reg) : Statement (.eorRsr c sf rn rd rs ty rm) :=
  fun _ => encA3_row 0x00200010#32 0x0FE00090#32 rfl c sf rn rd rs ty rm

theorem subImm (c : CondCode) (sf : Bool) (rn rd : Reg) (rot : BitVec 4) (imm : BitVec 8) : Statement (.subImm c sf rn rd rot imm) :=
  fun _ => encA1_row 0x02400000#32 0x0FE00000#32 rfl c sf rn rd rot imm

theorem subReg (c : CondCode) (sf : Bool) (rn rd : Reg) (amt : BitVec 5) (ty : ShiftType) (rm : Reg) : Statement (.subReg c sf rn rd amt ty rm) :=
  fun _ => encA2_row 0x00400000#32 0x0FE00010#32 rfl c sf rn rd amt ty rm

theorem subRsr (c : CondCode) (sf : Bool) (rn rd rs : Reg) (ty : ShiftType) (rm : Reg) : Statement (.subRsr c sf rn rd rs ty rm) :=
  fun _ => encA3_row 0x00400010#32 0x0FE00090#32 rfl c sf rn rd rs ty rm

theorem rsbImm (c : CondCode) (sf : Bool) (rn rd : Reg) (rot : BitVec 4) (imm : BitVec 8) : Statement (.rsbImm c sf rn rd rot imm) :=
  fun _ => encA1_row 0x02600000#32 0x0FE00000#32 rfl c sf rn rd rot imm

theorem rsbReg (c : CondCode) (sf : Bool) (rn rd : Reg) (amt : BitVec 5) (ty : ShiftType) (rm : Reg) : Statement (.rsbReg c sf rn rd amt ty rm) :=
  fun _ => encA2_row 0x00600000#32 0x0FE00010#32 rfl c sf rn rd amt ty rm

theorem rsbRsr (c : CondCode) (sf : Bool) (rn rd rs : Reg) (ty : ShiftType) (rm : Reg) : Statement (.rsbRsr c sf rn rd rs ty rm) :=
  fun _ => encA3_row 0x00600010#32 0x0FE00090#32 rfl c sf rn rd rs ty rm

theorem addImm (c : CondCode) (sf : Bool) (rn rd : Reg) (rot : BitVec 4) (imm : BitVec 8) : Statement (.addImm c sf rn rd rot imm) :=
  fun _ => encA1_row 0x02800000#32 0x0FE00000#32 rfl c sf rn rd rot imm

theorem addReg (c : CondCode) (sf : Bool) (rn rd : Reg) (amt : BitVec 5) (ty : ShiftType) (rm : Reg) : Statement (.addReg c sf rn rd amt ty rm) :=
  fun _ => encA2_row 0x00800000#32 0x0FE00010#32 rfl c sf rn rd amt ty rm

theorem addRsr (c : CondCode) (sf : Bool) (rn rd rs : Reg) (ty : ShiftType) (rm : Reg) : Statement (.addRsr c sf rn rd rs ty rm) :=
  fun _ => encA3_row 0x00800010#32 0x0FE00090#32 rfl c sf rn rd rs ty rm

theorem adcImm (c : CondCode) (sf : Bool) (rn rd : Reg) (rot : BitVec 4) (imm : BitVec 8) : Statement (.adcImm c sf rn rd rot imm) :=
  fun _ => encA1_row 0x02A00000#32 0x0FE00000#32 rfl c sf rn rd rot imm

theorem adcReg (c : CondCode) (sf : Bool) (rn rd : Reg) (amt : BitVec 5) (ty : ShiftType) (rm : Reg) : Statement (.adcReg c sf rn rd amt ty rm) :=
  fun _ => encA2_row 0x00A00000#32 0x0FE00010#32 rfl c sf rn rd amt ty rm

theorem adcRsr (c : CondCode) (sf : Bool) (rn rd rs : Reg) (ty : ShiftType) (rm : Reg) : Statement (.adcRsr c sf rn rd rs ty rm) :=
  fun _ => encA3_row 0x00A00010#32 0x0FE00090#32 rfl c sf rn rd rs ty rm

theorem sbcImm (c : CondCode) (sf : Bool) (rn rd : Reg) (rot : BitVec 4) (imm : BitVec 8) : Statement (.sbcImm c sf rn rd rot imm) :=
  fun _ => encA1_row 0x02C00000#32 0x0FE00000#32 rfl c sf rn rd rot imm

theorem sbcReg (c : CondCode) (sf : Bool) (rn rd : Reg) (amt : BitVec 5) (ty : ShiftType) (rm : Reg) : Statement (.sbcReg c sf rn rd amt ty rm) :=
  fun _ => encA2_row 0x00C00000#32 0x0FE00010#32 rfl c sf rn rd amt ty rm

theorem sbcRsr (c : CondCode) (sf : Bool) (rn rd rs : Reg) (ty : ShiftType) (rm : Reg) : Statement (.sbcRsr c sf rn rd rs ty rm) :=
  fun _ => encA3_row 0x00C00010#32 0x0FE00090#32 rfl c sf rn rd rs ty rm

theorem rscImm (c : CondCode) (sf : Bool) (rn rd : Reg) (rot : BitVec 4) (imm : BitVec 8) : Statement (.rscImm c sf rn rd rot imm) :=
  fun _ => encA1_row 0x02E00000#32 0x0FE00000#32 rfl c sf rn rd rot imm

theorem rscReg (c : CondCode) (sf : Bool) (rn rd : Reg) (amt : BitVec 5) (ty : ShiftType) (rm : Reg) : Statement (.rscReg c sf rn rd amt ty rm) :=
  fun _ => encA2_row 0x00E00000#32 0x0FE00010#32 rfl c sf rn rd amt ty rm

theorem rscRsr (c : CondCode) (sf : Bool) (rn rd rs : Reg) (ty : ShiftType) (rm : Reg) : Statement (.rscRsr c sf rn rd rs ty rm) :=
  fun _ => encA3_row 0x00E00010#32 0x0FE00090#32 rfl c sf rn rd rs ty rm

theorem tstImm (c : CondCode) (rn : Reg) (ign rot : BitVec 4) (imm : BitVec 8) : Statement (.tstImm c rn ign rot imm) :=
  fun _ => encA1_row_off 0x03100000#32 0x0FF00000#32 rfl c rn ign rot imm

theorem tstReg (c : CondCode) (rn : Reg) (ign : BitVec 4) (amt : BitVec 5) (ty : ShiftType) (rm : Reg) : Statement (.tstReg c rn ign amt ty rm) :=
  fun _ => encA2_row_off 0x01100000#32 0x0FF00010#32 rfl c rn ign amt ty rm

theorem tstRsr (c : CondCode) (rn : Reg) (ign : BitVec 4) (rs : Reg) (ty : ShiftType) (rm : Reg) : Statement (.tstRsr c rn ign rs ty rm) :=
  fun _ => encA3_row_off 0x01100010#32 0x0FF00090#32 rfl c rn ign rs ty rm

theorem teqImm (c : CondCode) (rn : Reg) (ign rot : BitVec 4) (imm : BitVec 8) : Statement (.teqImm c rn ign rot imm) :=
  fun _ => encA1_row_off 0x03300000#32 0x0FF00000#32 rfl c rn ign rot imm

theorem teqReg (c : CondCode) (rn : Reg) (ign : BitVec 4) (amt : BitVec 5) (ty : ShiftType) (rm : Reg) : Statement (.teqReg c rn ign amt ty rm) :=
  fun _ => encA2_row_off 0x01300000#32 0x0FF00010#32 rfl c rn ign amt ty rm

theorem teqRsr (c : CondCode) (rn : Reg) (ign : BitVec 4) (rs : Reg) (ty : ShiftType) (rm : Reg) : Statement (.teqRsr c rn ign rs ty rm) :=
  fun _ => encA3_row_off 0x01300010#32 0x0FF00090#32 rfl c rn ign rs ty rm

theorem cmpImm (c : CondCode) (rn : Reg) (ign rot : BitVec 4) (imm : BitVec 8) : Statement (.cmpImm c rn ign rot imm) :=
  fun _ => encA1_row_off 0x03500000#32 0x0FF00000#32 rfl c rn ign rot imm

theorem cmpReg (c : CondCode) (rn : Reg) (ign : BitVec 4) (amt : BitVec 5) (ty : ShiftType) (rm : Reg) : Statement (.cmpReg c rn ign amt ty rm) :=
  fun _ => encA2_row_off 0x01500000#32 0x0FF00010#32 rfl c rn ign amt ty rm

theorem cmpRsr (c : CondCode) (rn : Reg) (ign : BitVec 4) (rs : Reg) (ty : ShiftType) (rm : Reg) : Statement (.cmpRsr c rn ign rs ty rm) :=
  fun _ => encA3_row_off 0x01500010#32 0x0FF00090#32 rfl c rn ign rs ty rm

theorem cmnImm (c : CondCode) (rn : Reg) (ign rot : BitVec 4) (imm : BitVec 8) : Statement (.cmnImm c rn ign rot imm) :=
  fun _ => encA1_row_off 0x03700000#32 0x0FF00000#32 rfl c rn ign rot imm

theorem cmnReg (c : CondCode) (rn : Reg) (ign : BitVec 4) (amt : BitVec 5) (ty : ShiftType) (rm : Reg) : Statement (.cmnReg c rn ign amt ty rm) :=
  fun _ => encA2_row_off 0x01700000#32 0x0FF00010#32 rfl c rn ign amt ty rm

theorem cmnRsr (c : CondCode) (rn : Reg) (ign : BitVec 4) (rs : Reg) (ty : ShiftType) (rm : Reg) : Statement (.cmnRsr c rn ign rs ty rm) :=
  fun _ => encA3_row_off 0x01700010#32 0x0FF00090#32 rfl c rn ign rs ty rm

theorem orrImm (c : CondCode) (sf : Bool) (rn rd : Reg) (rot : BitVec 4) (imm : BitVec 8) : Statement (.orrImm c sf rn rd rot imm) :=
  fun _ => encA1_row 0x03800000#32 0x0FE00000#32 rfl c sf rn rd rot imm

theorem orrReg (c : CondCode) (sf : Bool) (rn rd : Reg) (amt : BitVec 5) (ty : ShiftType) (rm : Reg) : Statement (.orrReg c sf rn rd amt ty rm) :=
  fun _ => encA2_row 0x01800000#32 0x0FE00010#32 rfl c sf rn rd amt ty rm

theorem orrRsr (c : CondCode) (sf : Bool) (rn rd rs : Reg) (ty : ShiftType) (rm : Reg) : Statement (.orrRsr c sf rn rd rs ty rm) :=
  fun _ => encA3_row 0x01800010#32 0x0FE00090#32 rfl c sf rn rd rs ty rm

theorem movImm (c : CondCode) (sf : Bool) (ign : BitVec 4) (rd : Reg) (rot : BitVec 4) (imm : BitVec 8) : Statement (.movImm c sf ign rd rot imm) :=
  fun _ => encA1_row 0x03A00000#32 0x0FE00000#32 rfl c sf ign rd rot imm

theorem movReg (c : CondCode) (sf : Bool) (ign : BitVec 4) (rd : Reg) (amt : BitVec 5) (ty : ShiftType) (rm : Reg) : Statement (.movReg c sf ign rd amt ty rm) :=
  fun _ => encA2_row 0x01A00000#32 0x0FE00010#32 rfl c sf ign rd amt ty rm

theorem movRsr (c : CondCode) (sf : Bool) (ign : BitVec 4) (rd rs : Reg) (ty : ShiftType) (rm : Reg) : Statement (.movRsr c sf ign rd rs ty rm) :=
  fun _ => encA3_row 0x01A00010#32 0x0FE00090#32 rfl c sf ign rd rs ty rm

theorem bicImm (c : CondCode) (sf : Bool) (rn rd : Reg) (rot : BitVec 4) (imm : BitVec 8) : Statement (.bicImm c sf rn rd rot imm) :=
  fun _ => encA1_row 0x03C00000#32 0x0FE00000#32 rfl c sf rn rd rot imm

theorem bicReg (c : CondCode) (sf : Bool) (rn rd : Reg) (amt : BitVec 5) (ty : ShiftType) (rm : Reg) : Statement (.bicReg c sf rn rd amt ty rm) :=
  fun _ => encA2_row 0x01C00000#32 0x0FE00010#32 rfl c sf rn rd amt ty rm

theorem bicRsr (c : CondCode) (sf : Bool) (rn rd rs : Reg) (ty : ShiftType) (rm : Reg) : Statement (.bicRsr c sf rn rd rs ty rm) :=
  fun _ => encA3_row 0x01C00010#32 0x0FE00090#32 rfl c sf rn rd rs ty rm

theorem mvnImm (c : CondCode) (sf : Bool) (ign : BitVec 4) (rd : Reg) (rot : BitVec 4) (imm : BitVec 8) : Statement (.mvnImm c sf ign rd rot imm) :=
  fun _ => encA1_row 0x03E00000#32 0x0FE00000#32 rfl c sf ign rd rot imm

theorem mvnReg (c : CondCode) (sf : Bool) (ign : BitVec 4) (rd : Reg) (amt : BitVec 5) (ty : ShiftType) (rm : Reg) : Statement (.mvnReg c sf ign rd amt ty rm) :=
  fun _ => encA2_row 0x01E00000#32 0x0FE00010#32 rfl c sf ign rd amt ty rm

theorem mvnRsr (c : CondCode) (sf : Bool) (ign : BitVec 4) (rd rs : Reg) (ty : ShiftType) (rm : Reg) : Statement (.mvnRsr c sf ign rd rs ty rm) :=
  fun _ => encA3_row 0x01E00010#32 0x0FE00090#32 rfl c sf ign rd rs ty rm

theorem mrs (c : CondCode) (p : Bool) (rd : Reg) : Statement (.mrs c p rd) :=
  fun _ => encA4_row 0x010F0000#32 0x0FBF0FFF#32 rfl c p rd

theorem msrReg (c : CondCode) (p ff : Bool) (ign : BitVec 2) (fc : Bool) (rm : Reg) : Statement (.msrReg c p ff ign fc rm) :=
  fun _ => encA5_row 0x0120F000#32 0x0FB0FFF0#32 rfl c p ff ign fc rm

theorem msrImm (c : CondCode) (p ff : Bool) (ign : BitVec 2) (fc : Bool) (rot : BitVec 4) (imm : BitVec 8) : Statement (.msrImm c p ff ign fc rot imm) :=
  fun _ => encA6_row 0x0320F000#32 0x0FB0F000#32 rfl c p ff ign fc rot imm

theorem bx (c : CondCode) (rm : Reg) : Statement (.bx c rm) :=
  fun _ => encA7_row 0x012FFF10#32 0x0FFFFFF0#32 rfl c rm

theorem mul (c : CondCode) (sf : Bool) (rd : Reg) (ign : BitVec 4) (rs rm : Reg) : Statement (.mul c sf rd ign rs rm) :=
  fun _ => encA8_row 0x00000090#32 0x0FE000F0#32 rfl c sf rd ign rs rm

theorem mla (c : CondCode) (sf : Bool) (rd rn rs rm : Reg) : Statement (.mla c sf rd rn rs rm) :=
  fun _ => encA8_row 0x00200090#32 0x0FE000F0#32 rfl c sf rd rn rs rm

theorem umull (c : CondCode) (sf : Bool) (rdHi rdLo rs rm : Reg) : Statement (.umull c sf rdHi rdLo rs rm) :=
  fun _ => encA8_row 0x00800090#32 0x0FE000F0#32 rfl c sf rdHi rdLo rs rm

theorem umlal (c : CondCode) (sf : Bool) (rdHi rdLo rs rm : Reg) : Statement (.umlal c sf rdHi rdLo rs rm) :=
  fun _ => encA8_row 0x00A00090#32 0x0FE000F0#32 rfl c sf rdHi rdLo rs rm

theorem smull (c : CondCode) (sf : Bool) (rdHi rdLo rs rm : Reg) : Statement (.smull c sf rdHi rdLo rs rm) :=
  fun _ => encA8_row 0x00C00090#32 0x0FE000F0#32 rfl c sf rdHi rdLo rs rm

theorem smlal (c : CondCode) (sf : Bool) (rdHi rdLo rs rm : Reg) : Statement (.smlal c sf rdHi rdLo rs rm) :=
  fun _ => encA8_row 0x00E00090#32 0x0FE000F0#32 rfl c sf rdHi rdLo rs rm

theorem swp (c : CondCode) (rn rd : Reg) (ign : BitVec 4) (rm : Reg) : Statement (.swp c rn rd ign rm) :=
  fun _ => encA8_row_off 0x01000090#32 0x0FF000F0#32 rfl c rn rd ign rm

theorem swpb (c : CondCode) (rn rd : Reg) (ign : BitVec 4) (rm : Reg) : Statement (.swpb c rn rd ign rm) :=
  fun _ => encA8_row_off 0x01400090#32 0x0FF000F0#32 rfl c rn rd ign rm

theorem strhRegPre (c : CondCode) (u w : Bool) (rn rd : Reg) (ign : BitVec 4) (rm : Reg) : Statement (.strhRegPre c u w rn rd ign rm) :=
  fun _ => encA11_row 0x010000B0#32 0x0F5000F0#32 rfl c u w rn rd ign rm

theorem strhRegPost (c : CondCode) (u : Bool) (rn rd : Reg) (ign : BitVec 4) (rm : Reg) : Statement (.strhRegPost c u rn rd ign rm) :=
  fun _ => encA11_row_off 0x000000B0#32 0x0F7000F0#32 rfl c u rn rd ign rm

theorem strhImmPre (c : CondCode) (u w : Bool) (rn rd : Reg) (hi lo : BitVec 4) : Statement (.strhImmPre c u w rn rd hi lo) :=
  fun _ => encA11_row 0x014000B0#32 0x0F5000F0#32 rfl c u w rn rd hi lo

theorem strhImmPost (c : CondCode) (u : Bool) (rn rd : Reg) (hi lo : BitVec 4) : Statement (.strhImmPost c u rn rd hi lo) :=
  fun _ => encA11_row_off 0x004000B0#32 0x0F7000F0#32 rfl c u rn rd hi lo

theorem ldrhRegPre (c : CondCode) (u w : Bool) (rn rd : Reg) (ign : BitVec 4) (rm : Reg) : Statement (.ldrhRegPre c u w rn rd ign rm) :=
  fun _ => encA11_row 0x011000B0#32 0x0F5000F0#32 rfl c u w rn rd ign rm

theorem ldrhRegPost (c : CondCode) (u : Bool) (rn rd : Reg) (ign : BitVec 4) (rm : Reg) : Statement (.ldrhRegPost c u rn rd ign rm) :=
  fun _ => encA11_row_off 0x001000B0#32 0x0F7000F0#32 rfl c u rn rd ign rm

theorem ldrhImmPre (c : CondCode) (u w : Bool) (rn rd : Reg) (hi lo : BitVec 4) : Statement (.ldrhImmPre c u w rn rd hi lo) :=
  fun _ => encA11_row 0x015000B0#32 0x0F5000F0#32 rfl c u w rn rd hi lo

theorem ldrhImmPost (c : CondCode) (u : Bool) (rn rd : Reg) (hi lo : BitVec 4) : Statement (.ldrhImmPost c u rn rd hi lo) :=
  fun _ => encA11_row_off 0x005000B0#32 0x0F7000F0#32 rfl c u rn rd hi lo

theorem ldrsbRegPre (c : CondCode) (u w : Bool) (rn rd : Reg) (ign : BitVec 4) (rm : Reg) : Statement (.ldrsbRegPre c u w rn rd ign rm) :=
  fun _ => encA11_row 0x011000D0#32 0x0F5000F0#32 rfl c u w rn rd ign rm

theorem ldrsbRegPost (c : CondCode) (u : Bool) (rn rd : Reg) (ign : BitVec 4) (rm : Reg) : Statement (.ldrsbRegPost c u rn rd ign rm) :=
  fun _ => encA11_row_off 0x001000D0#32 0x0F7000F0#32 rfl c u rn rd ign rm

theorem ldrsbImmPre (c : CondCode) (u w : Bool) (rn rd : Reg) (hi lo : BitVec 4) : Statement (.ldrsbImmPre c u w rn rd hi lo) :=
  fun _ => encA11_row 0x015000D0#32 0x0F5000F0#32 rfl c u w rn rd hi lo

theorem ldrsbImmPost (c : CondCode) (u : Bool) (rn rd : Reg) (hi lo : BitVec 4) : Statement (.ldrsbImmPost c u rn rd hi lo) :=
  fun _ => encA11_row_off 0x005000D0#32 0x0F7000F0#32 rfl c u rn rd hi lo

theorem ldrshRegPre (c : CondCode) (u w : Bool) (rn rd : Reg) (ign : BitVec 4) (rm : Reg) : Statement (.ldrshRegPre c u w rn rd ign rm) :=
  fun _ => encA11_row 0x011000F0#32 0x0F5000F0#32 rfl c u w rn rd ign rm

theorem ldrshRegPost (c : CondCode) (u : Bool) (rn rd : Reg) (ign : BitVec 4) (rm : Reg) : Statement (.ldrshRegPost c u rn rd ign rm) :=
  fun _ => encA11_row_off 0x001000F0#32 0x0F7000F0#32 rfl c u rn rd ign rm

theorem ldrshImmPre (c : CondCode) (u w : Bool) (rn rd : Reg) (hi lo : BitVec 4) : Statement (.ldrshImmPre c u w rn rd hi lo) :=
  fun _ => encA11_row 0x015000F0#32 0x0F5000F0#32 rfl c u w rn rd hi lo

theorem ldrshImmPost (c : CondCode) (u : Bool) (rn rd : Reg) (hi lo : BitVec 4) : Statement (.ldrshImmPost c u rn rd hi lo) :=
  fun _ => encA11_row_off 0x005000F0#32 0x0F7000F0#32 rfl c u rn rd hi lo

theorem ldrImmPre (c : CondCode) (u w : Bool) (rn rd : Reg) (off : BitVec 12) : Statement (.ldrImmPre c u w rn rd off) :=
  fun _ => encA13i_row 0x05100000#32 0x0F500000#32 rfl c u w rn rd off

theorem ldrImmPost (c : CondCode) (u : Bool) (rn rd : Reg) (off : BitVec 12) : Statement (.ldrImmPost c u rn rd off) :=
  fun _ => encA13i_row_off 0x04100000#32 0x0F700000#32 rfl c u rn rd off

theorem ldrtImm (c : CondCode) (u : Bool) (rn rd : Reg) (off : BitVec 12) : Statement (.ldrtImm c u rn rd off) :=
  fun _ => encA13i_row_off 0x04300000#32 0x0F700000#32 rfl c u rn rd off

theorem ldrRegPre (c : CondCode) (u w : Bool) (rn rd : Reg) (amt : BitVec 5) (ty : ShiftType) (rm : Reg) : Statement (.ldrRegPre c u w rn rd amt ty rm) :=
  fun _ => encA13r_row 0x07100000#32 0x0F500010#32 rfl c u w rn rd amt ty rm

theorem ldrRegPost (c : CondCode) (u : Bool) (rn rd : Reg) (amt : BitVec 5) (ty : ShiftType) (rm : Reg) : Statement (.ldrRegPost c u rn rd amt ty rm) :=
  fun _ => encA13r_row_off 0x06100000#32 0x0F700010#32 rfl c u rn rd amt ty rm

theorem ldrtReg (c : CondCode) (u : Bool) (rn rd : Reg) (amt : BitVec 5) (ty : ShiftType) (rm : Reg) : Statement (.ldrtReg c u rn rd amt ty rm) :=
  fun _ => encA13r_row_off 0x06300000#32 0x0F700010#32 rfl c u rn rd amt ty rm

theorem ldrbImmPre (c : CondCode) (u w : Bool) (rn rd : Reg) (off : BitVec 12) : Statement (.ldrbImmPre c u w rn rd off) :=
  fun _ => encA13i_row 0x05500000#32 0x0F500000#32 rfl c u w rn rd off

theorem ldrbImmPost (c : CondCode) (u : Bool) (rn rd : Reg) (off : BitVec 12) : Statement (.ldrbImmPost c u rn rd off) :=
  fun _ => encA13i_row_off 0x04500000#32 0x0F700000#32 rfl c u rn rd off

theorem ldrbtImm (c : CondCode) (u : Bool) (rn rd : Reg) (off : BitVec 12) : Statement (.ldrbtImm c u rn rd off) :=
  fun _ => encA13i_row_off 0x04700000#32 0x0F700000#32 rfl c u rn rd off

theorem ldrbRegPre (c : CondCode) (u w : Bool) (rn rd : Reg) (amt : BitVec 5) (ty : ShiftType) (rm : Reg) : Statement (.ldrbRegPre c u w rn rd amt ty rm) :=
  fun _ => encA13r_row 0x07500000#32 0x0F500010#32 rfl c u w rn rd amt ty rm

theorem ldrbRegPost (c : CondCode) (u : Bool) (rn rd : Reg) (amt : BitVec 5) (ty : ShiftType) (rm : Reg) : Statement (.ldrbRegPost c u rn rd amt ty rm) :=
  fun _ => encA13r_row_off 0x06500000#32 0x0F700010#32 rfl c u rn rd amt ty rm

theorem ldrbtReg (c : CondCode) (u : Bool) (rn rd : Reg) (amt : BitVec 5) (ty : ShiftType) (rm : Reg) : Statement (.ldrbtReg c u rn rd amt ty rm) :=
  fun _ => encA13r_row_off 0x06700000#32 0x0F700010#32 rfl c u rn rd amt ty rm

theorem strImmPre (c : CondCode) (u w : Bool) (rn rd : Reg) (off : BitVec 12) : Statement (.strImmPre c u w rn rd off) :=
  fun _ => encA13i_row 0x05000000#32 0x0F500000#32 rfl c u w rn rd off

theorem strImmPost (c : CondCode) (u : Bool) (rn rd : Reg) (off : BitVec 12) : Statement (.strImmPost c u rn rd off) :=
  fun _ => encA13i_row_off 0x04000000#32 0x0F700000#32 rfl c u rn rd off

theorem strtImm (c : CondCode) (u : Bool) (rn rd : Reg) (off : BitVec 12) : Statement (.strtImm c u rn rd off) :=
  fun _ => encA13i_row_off 0x04200000#32 0x0F700000#32 rfl c u rn rd off

theorem strRegPre (c : CondCode) (u w : Bool) (rn rd : Reg) (amt : BitVec 5) (ty : ShiftType) (rm : Reg) : Statement (.strRegPre c u w rn rd amt ty rm) :=
  fun _ => encA13r_row 0x07000000#32 0x0F500010#32 rfl c u w rn rd amt ty rm

theorem strRegPost (c : CondCode) (u : Bool) (rn rd : Reg) (amt : BitVec 5) (ty : ShiftType) (rm : Reg) : Statement (.strRegPost c u rn rd amt ty rm) :=
  fun _ => encA13r_row_off 0x06000000#32 0x0F700010#32 rfl c u rn rd amt ty rm

theorem strtReg (c : CondCode) (u : Bool) (rn rd : Reg) (amt : BitVec 5) (ty : ShiftType) (rm : Reg) : Statement (.strtReg c u rn rd amt ty rm) :=
  fun _ => encA13r_row_off 0x06200000#32 0x0F700010#32 rfl c u rn rd amt ty rm

theorem strbImmPre (c : CondCode) (u w : Bool) (rn rd : Reg) (off : BitVec 12) : Statement (.strbImmPre c u w rn rd off) :=
  fun _ => encA13i_row 0x05400000#32 0x0F500000#32 rfl c u w rn rd off

theorem strbImmPost (c : CondCode) (u : Bool) (rn rd : Reg) (off : BitVec 12) : Statement (.strbImmPost c u rn rd off) :=
  fun _ => encA13i_row_off 0x04400000#32 0x0F700000#32 rfl c u rn rd off

theorem strbtImm (c : CondCode) (u : Bool) (rn rd : Reg) (off : BitVec 12) : Statement (.strbtImm c u rn rd off) :=
  fun _ => encA13i_row_off 0x04600000#32 0x0F700000#32 rfl c u rn rd off

theorem strbRegPre (c : CondCode) (u w : Bool) (rn rd : Reg) (amt : BitVec 5) (ty : ShiftType) (rm : Reg) : Statement (.strbRegPre c u w rn rd amt ty rm) :=
  fun _ => encA13r_row 0x07400000#32 0x0F500010#32 rfl c u w rn rd amt ty rm

theorem strbRegPost (c : CondCode) (u : Bool) (rn rd : Reg) (amt : BitVec 5) (ty : ShiftType) (rm : Reg) : Statement (.strbRegPost c u rn rd amt ty rm) :=
  fun _ => encA13r_row_off 0x06400000#32 0x0F700010#32 rfl c u rn rd amt ty rm

theorem strbtReg (c : CondCode) (u : Bool) (rn rd : Reg) (amt : BitVec 5) (ty : ShiftType) (rm : Reg) : Statement (.strbtReg c u rn rd amt ty rm) :=
  fun _ => encA13r_row_off 0x06600000#32 0x0F700010#32 rfl c u rn rd amt ty rm

theorem ldm (c : CondCode) (p u ub w : Bool) (rn : Reg) (list : BitVec 16) : Statement (.ldm c p u ub w rn list) :=
  fun _ => encA14_row 0x08100000#32 0x0E100000#32 rfl c p u ub w rn list

theorem stm (c : CondCode) (p u ub w : Bool) (rn : Reg) (list : BitVec 16) : Statement (.stm c p u ub w rn list) :=
  fun _ => encA14_row 0x08000000#32 0x0E100000#32 rfl c p u ub w rn list

theorem b (c : CondCode) (off : BitVec 24) : Statement (.b c off) :=
  fun _ => encA15_row 0x0A000000#32 0x0F000000#32 rfl c off

theorem bl (c : CondCode) (off : BitVec 24) : Statement (.bl c off) :=
  fun _ => encA15_row 0x0B000000#32 0x0F000000#32 rfl c off

theorem swi (c : CondCode) (comment : BitVec 24) : Statement (.swi c comment) :=
  fun _ => encA15_row 0x0F000000#32 0x0F000000#32 rfl c comment

theorem undMulSpace (w : BitVec 32) : Statement (.undMulSpace w) := by
  intro h
  simp only [Instr.wellFormed, undefinedMulSpace, Bool.or_eq_true, Bool.and_eq_true] at h
  rcases h with (((h | h) | h) | h) | h
  · exact matchesRow_weaken 0x0E000090#32 0x00000090#32 h rfl rfl
  · exact matchesRow_weaken 0x0E000090#32 0x00000090#32 h rfl rfl
  · exact matchesRow_weaken 0x0E000090#32 0x00000090#32 h.1 rfl rfl
  · exact matchesRow_weaken 0x0E000090#32 0x00000090#32 h.1 rfl rfl
  · exact matchesRow_weaken 0x0E000090#32 0x00000090#32 h rfl rfl

theorem undTestReg (w : BitVec 32) : Statement (.undTestReg w) := by
  intro h
  simp only [Instr.wellFormed, undefinedTestReg, Bool.and_eq_true] at h
  exact matchesRow_weaken 0x0F900010#32 0x01000000#32 h.1.1 rfl rfl

theorem undTestRsr (w : BitVec 32) : Statement (.undTestRsr w) := by
  intro h
  simp only [Instr.wellFormed, undefinedTestRsr, Bool.and_eq_true] at h
  exact matchesRow_weaken 0x0F900090#32 0x01000010#32 h.1 rfl rfl

theorem undTestImm (w : BitVec 32) : Statement (.undTestImm w) := by
  intro h
  simp only [Instr.wellFormed, undefinedTestImm, Bool.and_eq_true] at h
  exact matchesRow_weaken 0x0F900000#32 0x03000000#32 h.1 rfl rfl

theorem undClass011 (w : BitVec 32) : Statement (.undClass011 w) :=
  fun h => matchesRow_weaken 0x0E000010#32 0x06000010#32 h rfl rfl

theorem undCopTransfer (w : BitVec 32) : Statement (.undCopTransfer w) :=
  fun h => matchesRow_weaken 0x0E000000#32 0x0C000000#32 h rfl rfl

theorem undCopOp (w : BitVec 32) : Statement (.undCopOp w) :=
  fun h => matchesRow_weaken 0x0F000000#32 0x0E000000#32 h rfl rfl

theorem tLslImm (amt : BitVec 5) (rs rd : LowReg) : Statement (.tLslImm amt rs rd) :=
  of_thumb 0x00000000 0x0000F800 rfl rfl (p := 0x0000#16) (m := 0xF800#16) rfl rfl (encT1_row 0x0000#16 0xF800#16 rfl amt rs rd)

theorem tLsrImm (amt : BitVec 5) (rs rd : LowReg) : Statement (.tLsrImm amt rs rd) :=
  of_thumb 0x00000800 0x0000F800 rfl rfl (p := 0x0800#16) (m := 0xF800#16) rfl rfl (encT1_row 0x0800#16 0xF800#16 rfl amt rs rd)

theorem tAsrImm (amt : BitVec 5) (rs rd : LowReg) : Statement (.tAsrImm amt rs rd) :=
  of_thumb 0x00001000 0x0000F800 rfl rfl (p := 0x1000#16) (m := 0xF800#16) rfl rfl (encT1_row 0x1000#16 0xF800#16 rfl amt rs rd)

theorem tAddReg (rn rs rd : LowReg) : Statement (.tAddReg rn rs rd) :=
  of_thumb 0x00001800 0x0000FE00 rfl rfl (p := 0x1800#16) (m := 0xFE00#16) rfl rfl (encT2_row 0x1800#16 0xFE00#16 rfl rn rs rd)

theorem tSubReg (rn rs rd : LowReg) : Statement (.tSubReg rn rs rd) :=
  of_thumb 0x00001A00 0x0000FE00 rfl rfl (p := 0x1A00#16) (m := 0xFE00#16) rfl rfl (encT2_row 0x1A00#16 0xFE00#16 rfl rn rs rd)

theorem tAddImm3 (imm : BitVec 3) (rs rd : LowReg) : Statement (.tAddImm3 imm rs rd) :=
  of_thumb 0x00001C00 0x0000FE00 rfl rfl (p := 0x1C00#16) (m := 0xFE00#16) rfl rfl (encT2_row 0x1C00#16 0xFE00#16 rfl imm rs rd)

theorem tSubImm3 (imm : BitVec 3) (rs rd : LowReg) : Statement (.tSubImm3 imm rs rd) :=
  of_thumb 0x00001E00 0x0000FE00 rfl rfl (p := 0x1E00#16) (m := 0xFE00#16) rfl rfl (encT2_row 0x1E00#16 0xFE00#16 rfl imm rs rd)

theorem tMovImm8 (rd : LowReg) (imm : BitVec 8) : Statement (.tMovImm8 rd imm) :=
  of_thumb 0x00002000 0x0000F800 rfl rfl (p := 0x2000#16) (m := 0xF800#16) rfl rfl (encT3_row 0x2000#16 0xF800#16 rfl rd imm)

theorem tCmpImm8 (rd : LowReg) (imm : BitVec 8) : Statement (.tCmpImm8 rd imm) :=
  of_thumb 0x00002800 0x0000F800 rfl rfl (p := 0x2800#16) (m := 0xF800#16) rfl rfl (encT3_row 0x2800#16 0xF800#16 rfl rd imm)

theorem tAddImm8 (rd : LowReg) (imm : BitVec 8) : Statement (.tAddImm8 rd imm) :=
  of_thumb 0x00003000 0x0000F800 rfl rfl (p := 0x3000#16) (m := 0xF800#16) rfl rfl (encT3_row 0x3000#16 0xF800#16 rfl rd imm)

theorem tSubImm8 (rd : LowReg) (imm : BitVec 8) : Statement (.tSubImm8 rd imm) :=
  of_thumb 0x00003800 0x0000F800 rfl rfl (p := 0x3800#16) (m := 0xF800#16) rfl rfl (encT3_row 0x3800#16 0xF800#16 rfl rd imm)

theorem tAnd (rs rd : LowReg) : Statement (.tAnd rs rd) :=
  of_thumb 0x00004000 0x0000FFC0 rfl rfl (p := 0x4000#16) (m := 0xFFC0#16) rfl rfl (encT4_row 0x4000#16 0xFFC0#16 rfl rs rd)

theorem tEor (rs rd : LowReg) : Statement (.tEor rs rd) :=
  of_thumb 0x00004040 0x0000FFC0 rfl rfl (p := 0x4040#16) (m := 0xFFC0#16) rfl rfl (encT4_row 0x4040#16 0xFFC0#16 rfl rs rd)

theorem tLslReg (rs rd : LowReg) : Statement (.tLslReg rs rd) :=
  of_thumb 0x00004080 0x0000FFC0 rfl rfl (p := 0x4080#16) (m := 0xFFC0#16) rfl rfl (encT4_row 0x4080#16 0xFFC0#16 rfl rs rd)

theorem tLsrReg (rs rd : LowReg) : Statement (.tLsrReg rs rd) :=
  of_thumb 0x000040C0 0x0000FFC0 rfl rfl (p := 0x40C0#16) (m := 0xFFC0#16) rfl rfl (encT4_row 0x40C0#16 0xFFC0#16 rfl rs rd)

theorem tAsrReg (rs rd : LowReg) : Statement (.tAsrReg rs rd) :=
  of_thumb 0x00004100 0x0000FFC0 rfl rfl (p := 0x4100#16) (m := 0xFFC0#16) rfl rfl (encT4_row 0x4100#16 0xFFC0#16 rfl rs rd)

theorem tAdc (rs rd : LowReg) : Statement (.tAdc rs rd) :=
  of_thumb 0x00004140 0x0000FFC0 rfl rfl (p := 0x4140#16) (m := 0xFFC0#16) rfl rfl (encT4_row 0x4140#16 0xFFC0#16 rfl rs rd)

theorem tSbc (rs rd : LowReg) : Statement (.tSbc rs rd) :=
  of_thumb 0x00004180 0x0000FFC0 rfl rfl (p := 0x4180#16) (m := 0xFFC0#16) rfl rfl (encT4_row 0x4180#16 0xFFC0#16 rfl rs rd)

theorem tRorReg (rs rd : LowReg) : Statement (.tRorReg rs rd) :=
  of_thumb 0x000041C0 0x0000FFC0 rfl rfl (p := 0x41C0#16) (m := 0xFFC0#16) rfl rfl (encT4_row 0x41C0#16 0xFFC0#16 rfl rs rd)

theorem tTst (rs rd : LowReg) : Statement (.tTst rs rd) :=
  of_thumb 0x00004200 0x0000FFC0 rfl rfl (p := 0x4200#16) (m := 0xFFC0#16) rfl rfl (encT4_row 0x4200#16 0xFFC0#16 rfl rs rd)

theorem tNeg (rs rd : LowReg) : Statement (.tNeg rs rd) :=
  of_thumb 0x00004240 0x0000FFC0 rfl rfl (p := 0x4240#16) (m := 0xFFC0#16) rfl rfl (encT4_row 0x4240#16 0xFFC0#16 rfl rs rd)

theorem tCmp (rs rd : LowReg) : Statement (.tCmp rs rd) :=
  of_thumb 0x00004280 0x0000FFC0 rfl rfl (p := 0x4280#16) (m := 0xFFC0#16) rfl rfl (encT4_row 0x4280#16 0xFFC0#16 rfl rs rd)

theorem tCmn (rs rd : LowReg) : Statement (.tCmn rs rd) :=
  of_thumb 0x000042C0 0x0000FFC0 rfl rfl (p := 0x42C0#16) (m := 0xFFC0#16) rfl rfl (encT4_row 0x42C0#16 0xFFC0#16 rfl rs rd)

theorem tOrr (rs rd : LowReg) : Statement (.tOrr rs rd) :=
  of_thumb 0x00004300 0x0000FFC0 rfl rfl (p := 0x4300#16) (m := 0xFFC0#16) rfl rfl (encT4_row 0x4300#16 0xFFC0#16 rfl rs rd)

theorem tMul (rs rd : LowReg) : Statement (.tMul rs rd) :=
  of_thumb 0x00004340 0x0000FFC0 rfl rfl (p := 0x4340#16) (m := 0xFFC0#16) rfl rfl (encT4_row 0x4340#16 0xFFC0#16 rfl rs rd)

theorem tBic (rs rd : LowReg) : Statement (.tBic rs rd) :=
  of_thumb 0x00004380 0x0000FFC0 rfl rfl (p := 0x4380#16) (m := 0xFFC0#16) rfl rfl (encT4_row 0x4380#16 0xFFC0#16 rfl rs rd)

theorem tMvn (rs rd : LowReg) : Statement (.tMvn rs rd) :=
  of_thumb 0x000043C0 0x0000FFC0 rfl rfl (p := 0x43C0#16) (m := 0xFFC0#16) rfl rfl (encT4_row 0x43C0#16 0xFFC0#16 rfl rs rd)

theorem tAddHi (h1 h2 : Bool) (rs rd : LowReg) : Statement (.tAddHi h1 h2 rs rd) :=
  of_thumb 0x00004400 0x0000FF00 rfl rfl (p := 0x4400#16) (m := 0xFF00#16) rfl rfl (encT5_row 0x4400#16 0xFF00#16 rfl h1 h2 rs rd)

theorem tCmpHi (h1 h2 : Bool) (rs rd : LowReg) : Statement (.tCmpHi h1 h2 rs rd) :=
  of_thumb 0x00004500 0x0000FF00 rfl rfl (p := 0x4500#16) (m := 0xFF00#16) rfl rfl (encT5_row 0x4500#16 0xFF00#16 rfl h1 h2 rs rd)

theorem tMovHi (h1 h2 : Bool) (rs rd : LowReg) : Statement (.tMovHi h1 h2 rs rd) :=
  of_thumb 0x00004600 0x0000FF00 rfl rfl (p := 0x4600#16) (m := 0xFF00#16) rfl rfl (encT5_row 0x4600#16 0xFF00#16 rfl h1 h2 rs rd)

theorem tBx (ignH h2 : Bool) (rs : LowReg) (ign : BitVec 3) : Statement (.tBx ignH h2 rs ign) :=
  of_thumb 0x00004700 0x0000FF00 rfl rfl (p := 0x4700#16) (m := 0xFF00#16) rfl rfl (encT5_row 0x4700#16 0xFF00#16 rfl ignH h2 rs ign)

theorem tLdrPc (rd : LowReg) (off : BitVec 8) : Statement (.tLdrPc rd off) :=
  of_thumb 0x00004800 0x0000F800 rfl rfl (p := 0x4800#16) (m := 0xF800#16) rfl rfl (encT3_row 0x4800#16 0xF800#16 rfl rd off)

theorem tStrReg (ro rb rd : LowReg) : Statement (.tStrReg ro rb rd) :=
  of_thumb 0x00005000 0x0000FE00 rfl rfl (p := 0x5000#16) (m := 0xFE00#16) rfl rfl (encT2_row 0x5000#16 0xFE00#16 rfl ro rb rd)

theorem tStrhReg (ro rb rd : LowReg) : Statement (.tStrhReg ro rb rd) :=
  of_thumb 0x00005200 0x0000FE00 rfl rfl (p := 0x5200#16) (m := 0xFE00#16) rfl rfl (encT2_row 0x5200#16 0xFE00#16 rfl ro rb rd)

theorem tStrbReg (ro rb rd : LowReg) : Statement (.tStrbReg ro rb rd) :=
  of_thumb 0x00005400 0x0000FE00 rfl rfl (p := 0x5400#16) (m := 0xFE00#16) rfl rfl (encT2_row 0x5400#16 0xFE00#16 rfl ro rb rd)

theorem tLdsbReg (ro rb rd : LowReg) : Statement (.tLdsbReg ro rb rd) :=
  of_thumb 0x00005600 0x0000FE00 rfl rfl (p := 0x5600#16) (m := 0xFE00#16) rfl rfl (encT2_row 0x5600#16 0xFE00#16 rfl ro rb rd)

theorem tLdrReg (ro rb rd : LowReg) : Statement (.tLdrReg ro rb rd) :=
  of_thumb 0x00005800 0x0000FE00 rfl rfl (p := 0x5800#16) (m := 0xFE00#16) rfl rfl (encT2_row 0x5800#16 0xFE00#16 rfl ro rb rd)

theorem tLdrhReg (ro rb rd : LowReg) : Statement (.tLdrhReg ro rb rd) :=
  of_thumb 0x00005A00 0x0000FE00 rfl rfl (p := 0x5A00#16) (m := 0xFE00#16) rfl rfl (encT2_row 0x5A00#16 0xFE00#16 rfl ro rb rd)

theorem tLdrbReg (ro rb rd : LowReg) : Statement (.tLdrbReg ro rb rd) :=
  of_thumb 0x00005C00 0x0000FE00 rfl rfl (p := 0x5C00#16) (m := 0xFE00#16) rfl rfl (encT2_row 0x5C00#16 0xFE00#16 rfl ro rb rd)

theorem tLdshReg (ro rb rd : LowReg) : Statement (.tLdshReg ro rb rd) :=
  of_thumb 0x00005E00 0x0000FE00 rfl rfl (p := 0x5E00#16) (m := 0xFE00#16) rfl rfl (encT2_row 0x5E00#16 0xFE00#16 rfl ro rb rd)

theorem tStrImm (off : BitVec 5) (rb rd : LowReg) : Statement (.tStrImm off rb rd) :=
  of_thumb 0x00006000 0x0000F800 rfl rfl (p := 0x6000#16) (m := 0xF800#16) rfl rfl (encT1_row 0x6000#16 0xF800#16 rfl off rb rd)

theorem tLdrImm (off : BitVec 5) (rb rd : LowReg) : Statement (.tLdrImm off rb rd) :=
  of_thumb 0x00006800 0x0000F800 rfl rfl (p := 0x6800#16) (m := 0xF800#16) rfl rfl (encT1_row 0x6800#16 0xF800#16 rfl off rb rd)

theorem tStrbImm (off : BitVec 5) (rb rd : LowReg) : Statement (.tStrbImm off rb rd) :=
  of_thumb 0x00007000 0x0000F800 rfl rfl (p := 0x7000#16) (m := 0xF800#16) rfl rfl (encT1_row 0x7000#16 0xF800#16 rfl off rb rd)

theorem tLdrbImm (off : BitVec 5) (rb rd : LowReg) : Statement (.tLdrbImm off rb rd) :=
  of_thumb 0x00007800 0x0000F800 rfl rfl (p := 0x7800#16) (m := 0xF800#16) rfl rfl (encT1_row 0x7800#16 0xF800#16 rfl off rb rd)

theorem tStrhImm (off : BitVec 5) (rb rd : LowReg) : Statement (.tStrhImm off rb rd) :=
  of_thumb 0x00008000 0x0000F800 rfl rfl (p := 0x8000#16) (m := 0xF800#16) rfl rfl (encT1_row 0x8000#16 0xF800#16 rfl off rb rd)

theorem tLdrhImm (off : BitVec 5) (rb rd : LowReg) : Statement (.tLdrhImm off rb rd) :=
  of_thumb 0x00008800 0x0000F800 rfl rfl (p := 0x8800#16) (m := 0xF800#16) rfl rfl (encT1_row 0x8800#16 0xF800#16 rfl off rb rd)

theorem tStrSp (rd : LowReg) (off : BitVec 8) : Statement (.tStrSp rd off) :=
  of_thumb 0x00009000 0x0000F800 rfl rfl (p := 0x9000#16) (m := 0xF800#16) rfl rfl (encT3_row 0x9000#16 0xF800#16 rfl rd off)

theorem tLdrSp (rd : LowReg) (off : BitVec 8) : Statement (.tLdrSp rd off) :=
  of_thumb 0x00009800 0x0000F800 rfl rfl (p := 0x9800#16) (m := 0xF800#16) rfl rfl (encT3_row 0x9800#16 0xF800#16 rfl rd off)

theorem tAddPc (rd : LowReg) (off : BitVec 8) : Statement (.tAddPc rd off) :=
  of_thumb 0x0000A000 0x0000F800 rfl rfl (p := 0xA000#16) (m := 0xF800#16) rfl rfl (encT3_row 0xA000#16 0xF800#16 rfl rd off)

theorem tAddSp (rd : LowReg) (off : BitVec 8) : Statement (.tAddSp rd off) :=
  of_thumb 0x0000A800 0x0000F800 rfl rfl (p := 0xA800#16) (m := 0xF800#16) rfl rfl (encT3_row 0xA800#16 0xF800#16 rfl rd off)

theorem tSpPlus (off : BitVec 7) : Statement (.tSpPlus off) :=
  of_thumb 0x0000B000 0x0000FF80 rfl rfl (p := 0xB000#16) (m := 0xFF80#16) rfl rfl (encT13_row 0xB000#16 0xFF80#16 rfl off)

theorem tSpMinus (off : BitVec 7) : Statement (.tSpMinus off) :=
  of_thumb 0x0000B080 0x0000FF80 rfl rfl (p := 0xB080#16) (m := 0xFF80#16) rfl rfl (encT13_row 0xB080#16 0xFF80#16 rfl off)

theorem tPush (r : Bool) (list : BitVec 8) : Statement (.tPush r list) :=
  of_thumb 0x0000B400 0x0000FE00 rfl rfl (p := 0xB400#16) (m := 0xFE00#16) rfl rfl (encT14_row 0xB400#16 0xFE00#16 rfl r list)

theorem tPop (r : Bool) (list : BitVec 8) : Statement (.tPop r list) :=
  of_thumb 0x0000BC00 0x0000FE00 rfl rfl (p := 0xBC00#16) (m := 0xFE00#16) rfl rfl (encT14_row 0xBC00#16 0xFE00#16 rfl r list)

theorem tStmia (rb : LowReg) (list : BitVec 8) : Statement (.tStmia rb list) :=
  of_thumb 0x0000C000 0x0000F800 rfl rfl (p := 0xC000#16) (m := 0xF800#16) rfl rfl (encT3_row 0xC000#16 0xF800#16 rfl rb list)

theorem tLdmia (rb : LowReg) (list : BitVec 8) : Statement (.tLdmia rb list) :=
  of_thumb 0x0000C800 0x0000F800 rfl rfl (p := 0xC800#16) (m := 0xF800#16) rfl rfl (encT3_row 0xC800#16 0xF800#16 rfl rb list)

theorem tBeq (off : BitVec 8) : Statement (.tBeq off) :=
  of_thumb 0x0000D000 0x0000FF00 rfl rfl (p := 0xD000#16) (m := 0xFF00#16) rfl rfl (encT14_row_off 0xD000#16 0xFF00#16 rfl off)

theorem tBne (off : BitVec 8) : Statement (.tBne off) :=
  of_thumb 0x0000D100 0x0000FF00 rfl rfl (p := 0xD100#16) (m := 0xFF00#16) rfl rfl (encT14_row_off 0xD100#16 0xFF00#16 rfl off)

theorem tBcs (off : BitVec 8) : Statement (.tBcs off) :=
  of_thumb 0x0000D200 0x0000FF00 rfl rfl (p := 0xD200#16) (m := 0xFF00#16) rfl rfl (encT14_row_off 0xD200#16 0xFF00#16 rfl off)

theorem tBcc (off : BitVec 8) : Statement (.tBcc off) :=
  of_thumb 0x0000D300 0x0000FF00 rfl rfl (p := 0xD300#16) (m := 0xFF00#16) rfl rfl (encT14_row_off 0xD300#16 0xFF00#16 rfl off)

theorem tBmi (off : BitVec 8) : Statement (.tBmi off) :=
  of_thumb 0x0000D400 0x0000FF00 rfl rfl (p := 0xD400#16) (m := 0xFF00#16) rfl rfl (encT14_row_off 0xD400#16 0xFF00#16 rfl off)

theorem tBpl (off : BitVec 8) : Statement (.tBpl off) :=
  of_thumb 0x0000D500 0x0000FF00 rfl rfl (p := 0xD500#16) (m := 0xFF00#16) rfl rfl (encT14_row_off 0xD500#16 0xFF00#16 rfl off)

theorem tBvs (off : BitVec 8) : Statement (.tBvs off) :=
  of_thumb 0x0000D600 0x0000FF00 rfl rfl (p := 0xD600#16) (m := 0xFF00#16) rfl rfl (encT14_row_off 0xD600#16 0xFF00#16 rfl off)

theorem tBvc (off : BitVec 8) : Statement (.tBvc off) :=
  of_thumb 0x0000D700 0x0000FF00 rfl rfl (p := 0xD700#16) (m := 0xFF00#16) rfl rfl (encT14_row_off 0xD700#16 0xFF00#16 rfl off)

theorem tBhi (off : BitVec 8) : Statement (.tBhi off) :=
  of_thumb 0x0000D800 0x0000FF00 rfl rfl (p := 0xD800#16) (m := 0xFF00#16) rfl rfl (encT14_row_off 0xD800#16 0xFF00#16 rfl off)

theorem tBls (off : BitVec 8) : Statement (.tBls off) :=
  of_thumb 0x0000D900 0x0000FF00 rfl rfl (p := 0xD900#16) (m := 0xFF00#16) rfl rfl (encT14_row_off 0xD900#16 0xFF00#16 rfl off)

theorem tBge (off : BitVec 8) : Statement (.tBge off) :=
  of_thumb 0x0000DA00 0x0000FF00 rfl rfl (p := 0xDA00#16) (m := 0xFF00#16) rfl rfl (encT14_row_off 0xDA00#16 0xFF00#16 rfl off)

theorem tBlt (off : BitVec 8) : Statement (.tBlt off) :=
  of_thumb 0x0000DB00 0x0000FF00 rfl rfl (p := 0xDB00#16) (m := 0xFF00#16) rfl rfl (encT14_row_off 0xDB00#16 0xFF00#16 rfl off)

theorem tBgt (off : BitVec 8) : Statement (.tBgt off) :=
  of_thumb 0x0000DC00 0x0000FF00 rfl rfl (p := 0xDC00#16) (m := 0xFF00#16) rfl rfl (encT14_row_off 0xDC00#16 0xFF00#16 rfl off)

theorem tBle (off : BitVec 8) : Statement (.tBle off) :=
  of_thumb 0x0000DD00 0x0000FF00 rfl rfl (p := 0xDD00#16) (m := 0xFF00#16) rfl rfl (encT14_row_off 0xDD00#16 0xFF00#16 rfl off)

theorem tUndCond14 (w : BitVec 16) : Statement (.tUndCond14 w) :=
  fun h => matchesRow_weaken 0xFF00#16 0xDE00#16 h rfl rfl

theorem tSwi (comment : BitVec 8) : Statement (.tSwi comment) :=
  of_thumb 0x0000DF00 0x0000FF00 rfl rfl (p := 0xDF00#16) (m := 0xFF00#16) rfl rfl (encT14_row_off 0xDF00#16 0xFF00#16 rfl comment)

theorem tB (off : BitVec 11) : Statement (.tB off) :=
  of_thumb 0x0000E000 0x0000F800 rfl rfl (p := 0xE000#16) (m := 0xF800#16) rfl rfl (encT18_row 0xE000#16 0xF800#16 rfl off)

theorem tBlHigh (off : BitVec 11) : Statement (.tBlHigh off) :=
  of_thumb 0x0000F000 0x0000F800 rfl rfl (p := 0xF000#16) (m := 0xF800#16) rfl rfl (encT18_row 0xF000#16 0xF800#16 rfl off)

theorem tBlLow (off : BitVec 11) : Statement (.tBlLow off) :=
  of_thumb 0x0000F800 0x0000F800 rfl rfl (p := 0xF800#16) (m := 0xF800#16) rfl rfl (encT18_row 0xF800#16 0xF800#16 rfl off)

theorem tUndB1 (w : BitVec 16) : Statement (.tUndB1 w) :=
  fun h => matchesRow_weaken 0xFF00#16 0xB100#16 h rfl rfl

theorem tUndB2 (w : BitVec 16) : Statement (.tUndB2 w) :=
  fun h => matchesRow_weaken 0xFE00#16 0xB200#16 h rfl rfl

theorem tUndB6 (w : BitVec 16) : Statement (.tUndB6 w) :=
  fun h => matchesRow_weaken 0xFE00#16 0xB600#16 h rfl rfl

theorem tUndB8 (w : BitVec 16) : Statement (.tUndB8 w) :=
  fun h => matchesRow_weaken 0xFC00#16 0xB800#16 h rfl rfl

theorem tUndBe (w : BitVec 16) : Statement (.tUndBe w) :=
  fun h => matchesRow_weaken 0xFE00#16 0xBE00#16 h rfl rfl

theorem tUndE8 (w : BitVec 16) : Statement (.tUndE8 w) :=
  fun h => matchesRow_weaken 0xF800#16 0xE800#16 h rfl rfl

end EncodedInRow

end Sys2Proof.Laws
end

