-- ==== Sys2Proof/Tests/Slice0.lean ====
section
/-! SUPPORT. The model's own tests: the well-formedness check on ill-formed terms, the decoding of words written out
from the encodings of spec/30_encoding.md and of the instruction rules, one step on the examples of the rules and on
the vectors of spec/95_test_vectors.md, and for each statement of Obligations.lean a witness of its hypotheses. -/

namespace Sys2Proof.Tests

open Sys2Proof Sys2Proof.Machine

/-! ### Well-formedness: each check refuses an ill-formed term and passes a well-formed one (R117, R124) -/

/-- `0xE0910002` is ADDS. -/
theorem test_well_formed_mul_space : (Instr.undMulSpace 0xE0910002#32).wellFormed = false := by decide

/-- L1 to L5 of R117 pass; MUL, UMULL, SWP and LDRH beside them are refused. -/
theorem test_well_formed_mul_space_leaves :
    [0xE0400091#32, 0xE1800091#32, 0xE1120091#32, 0xE0F100B2#32, 0xE1C100F2#32].map
      (fun w => (Instr.undMulSpace w).wellFormed) = [true, true, true, true, true] ∧
    [0xE0000291#32, 0xE0810392#32, 0xE1020091#32, 0xE1D100B2#32].map
      (fun w => (Instr.undMulSpace w).wellFormed) = [false, false, false, false] := by decide

/-- `0xE10F0000` is MRS; `0xE129F000` is MSR. -/
theorem test_well_formed_test_reg :
    [0xE10F0000#32, 0xE129F000#32, 0xE1000000#32].map (fun w => (Instr.undTestReg w).wellFormed)
      = [false, false, true] := by decide

/-- `0xE12FFF10` is BX. -/
theorem test_well_formed_test_rsr :
    [0xE12FFF10#32, 0xE12FFF30#32].map (fun w => (Instr.undTestRsr w).wellFormed) = [false, true] := by decide

/-- `0xE328F4F0` is MSR; leaves L7 and L8 pass. -/
theorem test_well_formed_test_imm :
    [0xE328F4F0#32, 0xE3000000#32, 0xE3200000#32].map (fun w => (Instr.undTestImm w).wellFormed)
      = [false, true, true] := by decide

/-- `0xE7910102` is LDR. -/
theorem test_well_formed_class_011 :
    [0xE7910102#32, 0xE7F000F0#32].map (fun w => (Instr.undClass011 w).wellFormed) = [false, true] := by decide

/-- `0xEA000002` is B. -/
theorem test_well_formed_cop_transfer :
    [0xEA000002#32, 0xEC100000#32].map (fun w => (Instr.undCopTransfer w).wellFormed) = [false, true] := by decide

/-- `0xEF060000` is SWI. -/
theorem test_well_formed_cop_op :
    [0xEF060000#32, 0xEE100F10#32].map (fun w => (Instr.undCopOp w).wellFormed) = [false, true] := by decide

/-- The THUMB rows: an instruction of a neighbouring row is refused under each of them. -/
theorem test_well_formed_thumb :
    [(Instr.tUndCond14 0xDF05#16).wellFormed, (Instr.tUndB1 0xB084#16).wellFormed, (Instr.tUndB2 0xB400#16).wellFormed,
      (Instr.tUndB6 0xB501#16).wellFormed, (Instr.tUndB8 0xBC00#16).wellFormed, (Instr.tUndBe 0xBD01#16).wellFormed,
      (Instr.tUndE8 0xE7FE#16).wellFormed] = [false, false, false, false, false, false, false] ∧
    [(Instr.tUndCond14 0xDE00#16).wellFormed, (Instr.tUndB1 0xB100#16).wellFormed, (Instr.tUndB2 0xB300#16).wellFormed,
      (Instr.tUndB6 0xB700#16).wellFormed, (Instr.tUndB8 0xBB00#16).wellFormed, (Instr.tUndBe 0xBF00#16).wellFormed,
      (Instr.tUndE8 0xEFFF#16).wellFormed] = [true, true, true, true, true, true, true] := by decide

/-! ### Decoding: every constructor, from a word written out from the encoding of its rule

In the ARM words the condition is AL and the fields hold different values: Rn = 1, Rd = 2, and so on. -/

/-- `cond 001 oooo S nnnn dddd rrrr iiiiiiii` (R103, R105): S = 1, Rn = 1, Rd = 2, rotate 3, imm 0x45. -/
theorem test_decode_dp_immediate :
    [0xE2112345#32, 0xE2312345#32, 0xE2512345#32, 0xE2712345#32, 0xE2912345#32, 0xE2B12345#32, 0xE2D12345#32,
      0xE2F12345#32, 0xE3112345#32, 0xE3312345#32, 0xE3512345#32, 0xE3712345#32, 0xE3912345#32, 0xE3B12345#32,
      0xE3D12345#32, 0xE3F12345#32].map (fun w => decode (.arm w)) =
    [.andImm 14 true 1 2 3 0x45, .eorImm 14 true 1 2 3 0x45, .subImm 14 true 1 2 3 0x45, .rsbImm 14 true 1 2 3 0x45,
      .addImm 14 true 1 2 3 0x45, .adcImm 14 true 1 2 3 0x45, .sbcImm 14 true 1 2 3 0x45, .rscImm 14 true 1 2 3 0x45,
      .tstImm 14 1 2 3 0x45, .teqImm 14 1 2 3 0x45, .cmpImm 14 1 2 3 0x45, .cmnImm 14 1 2 3 0x45,
      .orrImm 14 true 1 2 3 0x45, .movImm 14 true 1 2 3 0x45, .bicImm 14 true 1 2 3 0x45,
      .mvnImm 14 true 1 2 3 0x45] := by decide

/-- `cond 000 oooo S nnnn dddd aaaaa tt 0 mmmm`: condition EQ, S = 0 but for the tests, LSR #22, Rm = 4. -/
theorem test_decode_dp_register :
    [0x00012B24#32, 0x00212B24#32, 0x00412B24#32, 0x00612B24#32, 0x00812B24#32, 0x00A12B24#32, 0x00C12B24#32,
      0x00E12B24#32, 0x01112B24#32, 0x01312B24#32, 0x01512B24#32, 0x01712B24#32, 0x01812B24#32, 0x01A12B24#32,
      0x01C12B24#32, 0x01E12B24#32].map (fun w => decode (.arm w)) =
    [.andReg 0 false 1 2 22 .lsr 4, .eorReg 0 false 1 2 22 .lsr 4, .subReg 0 false 1 2 22 .lsr 4,
      .rsbReg 0 false 1 2 22 .lsr 4, .addReg 0 false 1 2 22 .lsr 4, .adcReg 0 false 1 2 22 .lsr 4,
      .sbcReg 0 false 1 2 22 .lsr 4, .rscReg 0 false 1 2 22 .lsr 4, .tstReg 0 1 2 22 .lsr 4, .teqReg 0 1 2 22 .lsr 4,
      .cmpReg 0 1 2 22 .lsr 4, .cmnReg 0 1 2 22 .lsr 4, .orrReg 0 false 1 2 22 .lsr 4, .movReg 0 false 1 2 22 .lsr 4,
      .bicReg 0 false 1 2 22 .lsr 4, .mvnReg 0 false 1 2 22 .lsr 4] := by decide

/-- `cond 000 oooo S nnnn dddd ssss 0 tt 1 mmmm`: S = 1, Rs = 5, ASR, Rm = 4. -/
theorem test_decode_dp_register_shift :
    [0xE0112554#32, 0xE0312554#32, 0xE0512554#32, 0xE0712554#32, 0xE0912554#32, 0xE0B12554#32, 0xE0D12554#32,
      0xE0F12554#32, 0xE1112554#32, 0xE1312554#32, 0xE1512554#32, 0xE1712554#32, 0xE1912554#32, 0xE1B12554#32,
      0xE1D12554#32, 0xE1F12554#32].map (fun w => decode (.arm w)) =
    [.andRsr 14 true 1 2 5 .asr 4, .eorRsr 14 true 1 2 5 .asr 4, .subRsr 14 true 1 2 5 .asr 4,
      .rsbRsr 14 true 1 2 5 .asr 4, .addRsr 14 true 1 2 5 .asr 4, .adcRsr 14 true 1 2 5 .asr 4,
      .sbcRsr 14 true 1 2 5 .asr 4, .rscRsr 14 true 1 2 5 .asr 4, .tstRsr 14 1 2 5 .asr 4, .teqRsr 14 1 2 5 .asr 4,
      .cmpRsr 14 1 2 5 .asr 4, .cmnRsr 14 1 2 5 .asr 4, .orrRsr 14 true 1 2 5 .asr 4, .movRsr 14 true 1 2 5 .asr 4,
      .bicRsr 14 true 1 2 5 .asr 4, .mvnRsr 14 true 1 2 5 .asr 4] := by decide

/-- R200, R202, R203, R298: MRS of the SPSR to r3; MSR with mask 1110; MSR with mask 0001; BX r3. -/
theorem test_decode_psr_and_bx :
    [0xE14F3000#32, 0xE16EF004#32, 0xE321F4C5#32, 0xE12FFF13#32].map (fun w => decode (.arm w)) =
    [.mrs 14 true 3, .msrReg 14 true true 3 false 4, .msrImm 14 false false 0 true 4 0xC5, .bx 14 3] := by decide

/-- R230 to R237: fields 1, 2, 4, 3 from the high bits to the low ones. -/
theorem test_decode_multiply_swap :
    [0xE0112493#32, 0xE0312493#32, 0xE0912493#32, 0xE0B12493#32, 0xE0D12493#32, 0xE0F12493#32, 0xE1012493#32,
      0xE1412493#32].map (fun w => decode (.arm w)) =
    [.mul 14 true 1 2 4 3, .mla 14 true 1 2 4 3, .umull 14 true 1 2 4 3, .umlal 14 true 1 2 4 3,
      .smull 14 true 1 2 4 3, .smlal 14 true 1 2 4 3, .swp 14 1 2 4 3, .swpb 14 1 2 4 3] := by decide

/-- R264 to R268, `cond 000 P U I W L nnnn dddd hhhh 1 SH 1 llll`: the four indexing forms of each transfer. -/
theorem test_decode_halfword_transfers :
    [0xE1A124B3#32, 0xE08124B3#32, 0xE14124B3#32, 0xE0C124B3#32, 0xE1B124B3#32, 0xE09124B3#32, 0xE15124B3#32,
      0xE0D124B3#32, 0xE1B124D3#32, 0xE09124D3#32, 0xE15124D3#32, 0xE0D124D3#32, 0xE1B124F3#32, 0xE09124F3#32,
      0xE15124F3#32, 0xE0D124F3#32].map (fun w => decode (.arm w)) =
    [.strhRegPre 14 true true 1 2 4 3, .strhRegPost 14 true 1 2 4 3, .strhImmPre 14 false false 1 2 4 3,
      .strhImmPost 14 true 1 2 4 3, .ldrhRegPre 14 true true 1 2 4 3, .ldrhRegPost 14 true 1 2 4 3,
      .ldrhImmPre 14 false false 1 2 4 3, .ldrhImmPost 14 true 1 2 4 3, .ldrsbRegPre 14 true true 1 2 4 3,
      .ldrsbRegPost 14 true 1 2 4 3, .ldrsbImmPre 14 false false 1 2 4 3, .ldrsbImmPost 14 true 1 2 4 3,
      .ldrshRegPre 14 true true 1 2 4 3, .ldrshRegPost 14 true 1 2 4 3, .ldrshImmPre 14 false false 1 2 4 3,
      .ldrshImmPost 14 true 1 2 4 3] := by decide

/-- R250 to R262, `cond 010 P U B W L nnnn dddd iiiiiiiiiiii`: pre-indexed, post-indexed, forced-user. -/
theorem test_decode_single_immediate :
    [0xE5B12345#32, 0xE4912345#32, 0xE4B12345#32, 0xE5512345#32, 0xE4D12345#32, 0xE4F12345#32, 0xE5A12345#32,
      0xE4012345#32, 0xE4A12345#32, 0xE5412345#32, 0xE4C12345#32, 0xE4612345#32].map (fun w => decode (.arm w)) =
    [.ldrImmPre 14 true true 1 2 0x345, .ldrImmPost 14 true 1 2 0x345, .ldrtImm 14 true 1 2 0x345,
      .ldrbImmPre 14 false false 1 2 0x345, .ldrbImmPost 14 true 1 2 0x345, .ldrbtImm 14 true 1 2 0x345,
      .strImmPre 14 true true 1 2 0x345, .strImmPost 14 false 1 2 0x345, .strtImm 14 true 1 2 0x345,
      .strbImmPre 14 false false 1 2 0x345, .strbImmPost 14 true 1 2 0x345, .strbtImm 14 false 1 2 0x345] := by decide

/-- `cond 011 P U B W L nnnn dddd aaaaa tt 0 mmmm`: LSR #22, Rm = 4. -/
theorem test_decode_single_register :
    [0xE7B12B24#32, 0xE6912B24#32, 0xE6B12B24#32, 0xE7512B24#32, 0xE6D12B24#32, 0xE6F12B24#32, 0xE7A12B24#32,
      0xE6012B24#32, 0xE6A12B24#32, 0xE7412B24#32, 0xE6C12B24#32, 0xE6612B24#32].map (fun w => decode (.arm w)) =
    [.ldrRegPre 14 true true 1 2 22 .lsr 4, .ldrRegPost 14 true 1 2 22 .lsr 4, .ldrtReg 14 true 1 2 22 .lsr 4,
      .ldrbRegPre 14 false false 1 2 22 .lsr 4, .ldrbRegPost 14 true 1 2 22 .lsr 4, .ldrbtReg 14 true 1 2 22 .lsr 4,
      .strRegPre 14 true true 1 2 22 .lsr 4, .strRegPost 14 false 1 2 22 .lsr 4, .strtReg 14 true 1 2 22 .lsr 4,
      .strbRegPre 14 false false 1 2 22 .lsr 4, .strbRegPost 14 true 1 2 22 .lsr 4,
      .strbtReg 14 false 1 2 22 .lsr 4] := by decide

/-- R290 to R300, `cond 100 P U S W L nnnn list`, `cond 101 L offset24`, `cond 1111 comment24`. -/
theorem test_decode_block_branch_swi :
    [0xE9D18421#32, 0xE9218421#32, 0xEA123456#32, 0xEB123456#32, 0xEF123456#32].map (fun w => decode (.arm w)) =
    [.ldm 14 true true true false 1 0x8421, .stm 14 true false false true 1 0x8421, .b 14 0x123456, .bl 14 0x123456,
      .swi 14 0x123456] := by decide

/-- R302, R303, R269: the undefined words of the examples, and one of each leaf L1 to L8 of R117. -/
theorem test_decode_arm_undefined :
    [0xE0400291#32, 0xE1800091#32, 0xE1120091#32, 0xE0A100B2#32, 0xE1C100D2#32, 0xE1000000#32, 0xE12FFF30#32,
      0xE3000000#32, 0xE3200000#32, 0xE7F000F0#32, 0xEC100000#32, 0xEE100F10#32].map (fun w => decode (.arm w)) =
    [.undMulSpace 0xE0400291, .undMulSpace 0xE1800091, .undMulSpace 0xE1120091, .undMulSpace 0xE0A100B2,
      .undMulSpace 0xE1C100D2, .undTestReg 0xE1000000, .undTestRsr 0xE12FFF30, .undTestImm 0xE3000000,
      .undTestImm 0xE3200000, .undClass011 0xE7F000F0, .undCopTransfer 0xEC100000, .undCopOp 0xEE100F10] := by decide

/-- R330 to R340: amount 22 or Rn or imm 3, Rs = 1, Rd = 2; then Rd = 5 and imm 0x9C. -/
theorem test_decode_thumb_shift_add_immediate :
    [0x058A#16, 0x0D8A#16, 0x158A#16, 0x18CA#16, 0x1ACA#16, 0x1CCA#16, 0x1ECA#16, 0x259C#16, 0x2D9C#16, 0x359C#16,
      0x3D9C#16].map (fun h => decode (.thumb h)) =
    [.tLslImm 22 1 2, .tLsrImm 22 1 2, .tAsrImm 22 1 2, .tAddReg 3 1 2, .tSubReg 3 1 2, .tAddImm3 3 1 2,
      .tSubImm3 3 1 2, .tMovImm8 5 0x9C, .tCmpImm8 5 0x9C, .tAddImm8 5 0x9C, .tSubImm8 5 0x9C] := by decide

/-- R344 to R360, `010000 pppp sss ddd`: Rs = 6, Rd = 3. -/
theorem test_decode_thumb_alu :
    [0x4033#16, 0x4073#16, 0x40B3#16, 0x40F3#16, 0x4133#16, 0x4173#16, 0x41B3#16, 0x41F3#16, 0x4233#16, 0x4273#16,
      0x42B3#16, 0x42F3#16, 0x4333#16, 0x4373#16, 0x43B3#16, 0x43F3#16].map (fun h => decode (.thumb h)) =
    [.tAnd 6 3, .tEor 6 3, .tLslReg 6 3, .tLsrReg 6 3, .tAsrReg 6 3, .tAdc 6 3, .tSbc 6 3, .tRorReg 6 3, .tTst 6 3,
      .tNeg 6 3, .tCmp 6 3, .tCmn 6 3, .tOrr 6 3, .tMul 6 3, .tBic 6 3, .tMvn 6 3] := by decide

/-- R361 to R368: `010001 pp H h sss ddd` with source 6 and destination 3, then formats T12 and T13. -/
theorem test_decode_thumb_high_and_address :
    [0x44B3#16, 0x4573#16, 0x46F3#16, 0x4773#16, 0xA59C#16, 0xAD9C#16, 0xB05A#16, 0xB0DA#16].map
      (fun h => decode (.thumb h)) =
    [.tAddHi true false 6 3, .tCmpHi false true 6 3, .tMovHi true true 6 3, .tBx false true 6 3, .tAddPc 5 0x9C,
      .tAddSp 5 0x9C, .tSpPlus 0x5A, .tSpMinus 0x5A] := by decide

/-- R390 to R398: Rd = 5 and offset 0x9C; `0101 ppp ooo bbb ddd` with Ro = 4, Rb = 6, Rd = 3. -/
theorem test_decode_thumb_pc_and_register_offset :
    [0x4D9C#16, 0x5133#16, 0x5333#16, 0x5533#16, 0x5733#16, 0x5933#16, 0x5B33#16, 0x5D33#16, 0x5F33#16].map
      (fun h => decode (.thumb h)) =
    [.tLdrPc 5 0x9C, .tStrReg 4 6 3, .tStrhReg 4 6 3, .tStrbReg 4 6 3, .tLdsbReg 4 6 3, .tLdrReg 4 6 3, .tLdrhReg 4 6 3,
      .tLdrbReg 4 6 3, .tLdshReg 4 6 3] := by decide

/-- R399 to R406: offset 22, Rb = 6, Rd = 3; then Rd = 5 and offset 0x9C. -/
theorem test_decode_thumb_immediate_offset :
    [0x65B3#16, 0x6DB3#16, 0x75B3#16, 0x7DB3#16, 0x85B3#16, 0x8DB3#16, 0x959C#16, 0x9D9C#16].map
      (fun h => decode (.thumb h)) =
    [.tStrImm 22 6 3, .tLdrImm 22 6 3, .tStrbImm 22 6 3, .tLdrbImm 22 6 3, .tStrhImm 22 6 3, .tLdrhImm 22 6 3,
      .tStrSp 5 0x9C, .tLdrSp 5 0x9C] := by decide

/-- R410 to R413: list 0xA5, Rb = 5. -/
theorem test_decode_thumb_multiple :
    [0xB5A5#16, 0xB4A5#16, 0xBDA5#16, 0xBCA5#16, 0xC5A5#16, 0xCDA5#16].map (fun h => decode (.thumb h)) =
    [.tPush true 0xA5, .tPush false 0xA5, .tPop true 0xA5, .tPop false 0xA5, .tStmia 5 0xA5, .tLdmia 5 0xA5] := by decide

/-- R440, R442 to R447: offsets 0x9C and 0x59C. -/
theorem test_decode_thumb_branches :
    [0xD09C#16, 0xD19C#16, 0xD29C#16, 0xD39C#16, 0xD49C#16, 0xD59C#16, 0xD69C#16, 0xD79C#16, 0xD89C#16, 0xD99C#16,
      0xDA9C#16, 0xDB9C#16, 0xDC9C#16, 0xDD9C#16, 0xDF9C#16, 0xE59C#16, 0xF59C#16, 0xFD9C#16].map
      (fun h => decode (.thumb h)) =
    [.tBeq 0x9C, .tBne 0x9C, .tBcs 0x9C, .tBcc 0x9C, .tBmi 0x9C, .tBpl 0x9C, .tBvs 0x9C, .tBvc 0x9C, .tBhi 0x9C,
      .tBls 0x9C, .tBge 0x9C, .tBlt 0x9C, .tBgt 0x9C, .tBle 0x9C, .tSwi 0x9C, .tB 0x59C, .tBlHigh 0x59C,
      .tBlLow 0x59C] := by decide

/-- R441, R448: the undefined halfwords, at the ends of their ranges. -/
theorem test_decode_thumb_undefined :
    [0xDE00#16, 0xB100#16, 0xB200#16, 0xB3FF#16, 0xB600#16, 0xB7FF#16, 0xB800#16, 0xBBFF#16, 0xBE00#16, 0xBFFF#16,
      0xE800#16, 0xEFFF#16].map (fun h => decode (.thumb h)) =
    [.tUndCond14 0xDE00, .tUndB1 0xB100, .tUndB2 0xB200, .tUndB2 0xB3FF, .tUndB6 0xB600, .tUndB6 0xB7FF,
      .tUndB8 0xB800, .tUndB8 0xBBFF, .tUndBe 0xBE00, .tUndBe 0xBFFF, .tUndE8 0xE800, .tUndE8 0xEFFF] := by decide

/-- A byte list that is too short holds no instruction; bytes are little-endian (R71, R100). -/
theorem test_decode_bytes :
    decodeBytes false [0x02#8, 0x00#8, 0x91#8, 0xE0#8, 0x55#8] = .ok (.addReg 14 true 1 0 0 .lsl 2, [0x55#8]) ∧
    decodeBytes true [0x48#8, 0x1E#8] = .ok (.tSubImm3 1 1 0, []) ∧
    decodeBytes false [0x02#8, 0x00#8, 0x91#8] = .error .truncated := ⟨rfl, rfl, rfl⟩

/-! ### One step, on small states -/

/-- The default ARM start of spec/95_test_vectors.md 2.0: the word at 0x00008000, Supervisor mode, flags clear, policy
`refuse`. -/
def arm (w : Word) : State :=
  { State.reset with
    pc := 0x00008000#32
    mem := Memory.store [] 0x00008000#32 .word w
    params := { misaligned := .refuse, swi := .vectored, resetPc := 0 } }

/-- The default THUMB start. -/
def thumb (h : Half) : State :=
  { arm 0 with
    mem := Memory.store [] 0x00008000#32 .half (h.setWidth 32)
    cpsr := { State.reset.cpsr with t := true } }

/-- Set registers of the current mode. -/
def given (rs : List (Reg × Word)) (s : State) : State := rs.foldl (fun s x => s.setReg x.1 x.2) s

/-- Set words of memory. -/
def words (ws : List (Word × Word)) (s : State) : State :=
  { s with mem := ws.foldl (fun m x => m.store x.1 .word x.2) s.mem }

/-- Set the flags, N first. -/
def flags (f : BitVec 4) (s : State) : State :=
  { s with cpsr := { s.cpsr with n := f.getLsbD 3, z := f.getLsbD 2, c := f.getLsbD 1, v := f.getLsbD 0 } }

/-- Set the mode. -/
def inMode (m : BitVec 5) (s : State) : State := { s with cpsr := { s.cpsr with m := m } }

/-- Set the saved status register of a bank from its image. -/
def saved (b : SpsrBank) (w : Word) (s : State) : State := { s with spsr := s.spsr.set b (Psr.ofWord w) }

/-- The policy `rotate`. -/
def rotating (s : State) : State := { s with params := { s.params with misaligned := .rotate } }

/-- `f` of the state after one step; nothing if the step stops. -/
def after {α : Type} (f : State → α) (s : State) : Option α :=
  match step s with
  | .next t => some (f t)
  | .fault _ => none
  | .refused _ => none

/-- The flags, N first. -/
def nzcv (s : State) : BitVec 4 := s.cpsr.toWord.extractLsb' 28 4

/-- r0 and the flags. -/
def r0Flags (s : State) : Word × BitVec 4 := (s.reg 0, nzcv s)

/-! #### ARM data processing (95_test_vectors.md 1.6, 2.5) -/

theorem test_ands : after r0Flags (flags 0b1011#4 (given [(1, 0xF0F0F0F0#32), (2, 0x0F0F0F0F#32)] (arm 0xE0110002#32)))
    = some (0#32, 0b0111#4) := by decide

theorem test_ands_shifter_carry :
    after r0Flags (given [(1, 0xFFFFFFFF#32), (2, 0xC0000000#32)] (arm 0xE0110082#32)) = some (0x80000000#32, 0b1010#4) := by
  decide

theorem test_eors : after r0Flags (flags 0b0111#4 (given [(1, 0xFFFFFFFF#32), (2, 0x7FFFFFFF#32)] (arm 0xE0310002#32)))
    = some (0x80000000#32, 0b1011#4) := by decide

theorem test_subs_overflow : after r0Flags (given [(1, 0x80000000#32), (2, 1#32)] (arm 0xE0510002#32))
    = some (0x7FFFFFFF#32, 0b0011#4) := by decide

theorem test_rsbs : after r0Flags (given [(1, 1#32)] (arm 0xE2710000#32)) = some (0xFFFFFFFF#32, 0b1000#4) := by decide

theorem test_adds_scenario : after r0Flags (given [(1, 0xFFFFFFFF#32), (2, 1#32)] (arm 0xE0910002#32))
    = some (0#32, 0b0110#4) := by decide

theorem test_adcs : after r0Flags (flags 0b0010#4 (given [(1, 0x7FFFFFFF#32), (2, 0x7FFFFFFF#32)] (arm 0xE0B10002#32)))
    = some (0xFFFFFFFF#32, 0b1001#4) := by decide

theorem test_sbcs_borrow : after r0Flags (given [(1, 5#32), (2, 5#32)] (arm 0xE0D10002#32))
    = some (0xFFFFFFFF#32, 0b1000#4) := by decide

theorem test_rscs : after r0Flags (given [(1, 1#32), (2, 3#32)] (arm 0xE0F10002#32)) = some (1#32, 0b0010#4) := by decide

theorem test_tst : after nzcv (flags 0b0110#4 (given [(1, 0x80000000#32), (2, 0x80000000#32)] (arm 0xE1110002#32)))
    = some 0b1010#4 := by decide

theorem test_teq : after nzcv (flags 0b1001#4 (given [(1, 0x12345678#32), (2, 0x12345678#32)] (arm 0xE1310002#32)))
    = some 0b0101#4 := by decide

theorem test_cmp : after nzcv (given [(1, 1#32)] (arm 0xE3510002#32)) = some 0b1000#4 := by decide

theorem test_cmn : after nzcv (given [(1, 0xFFFFFFFF#32), (2, 1#32)] (arm 0xE1710002#32)) = some 0b0110#4 := by decide

theorem test_orrs_rotated : after r0Flags (given [(1, 1#32)] (arm 0xE3910102#32))
    = some (0x80000001#32, 0b1010#4) := by decide

theorem test_movs_rrx : after r0Flags (flags 0b0010#4 (given [(1, 2#32)] (arm 0xE1B00061#32)))
    = some (0x80000001#32, 0b1000#4) := by decide

theorem test_movs_lsl_by_33 : after r0Flags (flags 0b0010#4 (given [(1, 1#32), (2, 0x21#32)] (arm 0xE1B00211#32)))
    = some (0#32, 0b0100#4) := by decide

theorem test_bics : after r0Flags (flags 0b1000#4 (given [(1, 0xFFFFFFFF#32), (2, 0xFFFFFFFF#32)] (arm 0xE1D10002#32)))
    = some (0#32, 0b0100#4) := by decide

theorem test_mvns : after r0Flags (flags 0b0110#4 (arm 0xE3F00000#32)) = some (0xFFFFFFFF#32, 0b1010#4) := by decide

/-- `ADD r0, pc, pc`: r15 reads as A + 8. -/
theorem test_add_pc_pc : after (fun t => (t.reg 0, t.pc)) (arm 0xE08F000F#32) = some (0x00010010#32, 0x00008004#32) := by
  decide

/-- `MOV pc, lr` clears bits 1:0 of the target. -/
theorem test_mov_pc : after (·.pc) (given [(14, 0x00001236#32)] (arm 0xE1A0F00E#32)) = some 0x00001234#32 := by decide

/-- `MOVS pc, lr` reloads the status and masks the target for the restored THUMB state. -/
theorem test_movs_pc_returns :
    after (fun t => (t.pc, t.cpsr.toWord)) (saved .svc 0x6000003F#32 (given [(14, 0x00001237#32)] (arm 0xE1B0F00E#32)))
      = some (0x00001236#32, 0x6000003F#32) := by decide

/-- Condition EQ with Z clear. -/
theorem test_condition_fails : after (fun t => (t.reg 0, t.pc)) (given [(1, 1#32), (2, 2#32)] (arm 0x00910002#32))
    = some (0#32, 0x00008004#32) := by decide

/-! #### PSR transfer (95_test_vectors.md 1.4, 1.10, 2.6) -/

theorem test_mrs_spsr : after (·.reg 0) (saved .svc 0xF00000FF#32 (arm 0xE14F0000#32)) = some 0xF00000FF#32 := by decide

/-- In System mode there is no saved register: MRS reads the CPSR. -/
theorem test_mrs_spsr_in_system : after (·.reg 0) (flags 0b0110#4 (inMode modeSys (arm 0xE14F0000#32)))
    = some 0x600000DF#32 := by decide

theorem test_msr_user_writes_flags_only :
    after (·.cpsr.toWord) (given [(1, 0xFFFFFFDF#32)] (inMode modeUsr (arm 0xE129F001#32))) = some 0xF00000D0#32 := by decide

theorem test_msr_spsr : after (fun t => (t.spsr.get .svc).toWord) (given [(0, 0xA55AA5F5#32)] (arm 0xE169F000#32))
    = some 0xA00000F5#32 := by decide

/-- `MSR CPSR_c, #0xC5`: an invalid mode value is stored. -/
theorem test_msr_immediate_invalid_mode : after (·.cpsr.toWord) (arm 0xE321F0C5#32) = some 0x000000C5#32 := by decide

/-! #### Multiply and swap (95_test_vectors.md 2.7) -/

theorem test_muls : after r0Flags (flags 0b1011#4 (given [(1, 0x10000#32), (2, 0x10000#32)] (arm 0xE0100291#32)))
    = some (0#32, 0b0101#4) := by decide

theorem test_mlas : after r0Flags (flags 0b0010#4 (given [(1, 3#32), (2, 4#32), (3, 0xFFFFFFF4#32)] (arm 0xE0303291#32)))
    = some (0#32, 0b0100#4) := by decide

theorem test_umulls : after (fun t => (t.reg 0, t.reg 1, nzcv t))
    (flags 0b0011#4 (given [(2, 0xFFFFFFFF#32), (3, 0xFFFFFFFF#32)] (arm 0xE0910392#32)))
    = some (1#32, 0xFFFFFFFE#32, 0b1001#4) := by decide

theorem test_umlals : after (fun t => (t.reg 0, t.reg 1)) (given [(0, 0xFFFFFFFF#32), (2, 1#32), (3, 1#32)] (arm 0xE0B10392#32))
    = some (0#32, 1#32) := by decide

theorem test_smulls : after (fun t => (t.reg 0, t.reg 1, nzcv t))
    (flags 0b0010#4 (given [(2, 0xFFFFFFFF#32), (3, 1#32)] (arm 0xE0D10392#32)))
    = some (0xFFFFFFFF#32, 0xFFFFFFFF#32, 0b1000#4) := by decide

theorem test_smlals : after (fun t => (t.reg 0, t.reg 1, nzcv t))
    (given [(1, 0x80000000#32), (2, 0x7FFFFFFF#32), (3, 0x7FFFFFFF#32)] (arm 0xE0F10392#32))
    = some (1#32, 0xBFFFFFFF#32, 0b1000#4) := by decide

/-- RdHi = RdLo: the high word stays. -/
theorem test_umull_same_register : after (·.reg 0) (given [(2, 0x10000#32), (3, 0x10000#32)] (arm 0xE0800392#32))
    = some 1#32 := by decide

theorem test_swp_in_place : after (fun t => (t.reg 0, t.mem.read32 0x03000000#32))
    (words [(0x03000000#32, 0x22222222#32)] (given [(0, 0x11111111#32), (2, 0x03000000#32)] (arm 0xE1020090#32)))
    = some (0x22222222#32, 0x11111111#32) := by decide

theorem test_swp_rotated : after (fun t => (t.reg 0, t.mem.read32 0x03000000#32))
    (rotating (words [(0x03000000#32, 0x44332211#32)]
      (given [(1, 0x11111111#32), (2, 0x03000001#32)] (arm 0xE1020091#32))))
    = some (0x11443322#32, 0x11111111#32) := by decide

theorem test_swpb : after (fun t => (t.reg 0, t.mem.read32 0x03000000#32))
    (words [(0x03000000#32, 0x44332211#32)] (given [(1, 0x111111AB#32), (2, 0x03000001#32)] (arm 0xE1420091#32)))
    = some (0x22#32, 0x4433AB11#32) := by decide

/-! #### Single transfers (95_test_vectors.md 2.8, 2.9) -/

/-- Memory image M1. -/
def m1 : State → State := words [(0x03000000#32, 0x44332211#32), (0x03000004#32, 0x88776655#32)]

/-- Memory image M2. -/
def m2 : State → State := words [(0x03000000#32, 0x8091F2E3#32), (0x03000004#32, 0x00007FFF#32)]

/-- r0 and r1. -/
def r0r1 (s : State) : Word × Word := (s.reg 0, s.reg 1)

theorem test_ldr_pre_writeback : after r0r1 (m1 (given [(1, 0x03000000#32)] (arm 0xE5B10004#32)))
    = some (0x88776655#32, 0x03000004#32) := by decide

/-- A loaded base stays. -/
theorem test_ldr_base_loaded : after (·.reg 1) (m1 (given [(1, 0x03000000#32)] (arm 0xE5B11004#32)))
    = some 0x88776655#32 := by decide

theorem test_ldr_post : after r0r1 (m1 (given [(1, 0x03000000#32)] (arm 0xE4910004#32)))
    = some (0x44332211#32, 0x03000004#32) := by decide

theorem test_ldr_register_rrx : after (·.reg 0) (m1 (given [(1, 0x03000004#32), (2, 8#32)] (arm 0xE7110062#32)))
    = some 0x44332211#32 := by decide

theorem test_ldr_misaligned_rotates : after r0r1 (rotating (m1 (given [(1, 0x03000000#32)] (arm 0xE5B10003#32))))
    = some (0x33221144#32, 0x03000003#32) := by decide

/-- R77: under `refuse` the instruction has no meaning. -/
theorem test_ldr_misaligned_refused : after (·.pc) (m1 (given [(1, 0x03000000#32)] (arm 0xE5910001#32))) = none := by decide

theorem test_ldr_pc : after (·.pc) (words [(0x03000004#32, 0x00001237#32)] (given [(1, 0x03000000#32)] (arm 0xE591F004#32)))
    = some 0x00001234#32 := by decide

theorem test_ldrb : after (·.reg 0) (m1 (given [(1, 0x03000000#32)] (arm 0xE5D10005#32))) = some 0x66#32 := by decide

theorem test_str_post : after (fun t => (t.mem.read32 0x03000000#32, t.reg 1))
    (given [(0, 0xAABBCCDD#32), (1, 0x03000000#32)] (arm 0xE4810004#32)) = some (0xAABBCCDD#32, 0x03000004#32) := by decide

/-- The base is stored before it is updated. -/
theorem test_str_base_stored : after (fun t => (t.mem.read32 0x03000004#32, t.reg 1))
    (given [(1, 0x03000000#32)] (arm 0xE5A11004#32)) = some (0x03000000#32, 0x03000004#32) := by decide

theorem test_str_pc : after (fun t => t.mem.read32 0x03000000#32) (given [(0, 0#32), (1, 0x03000000#32)] (arm 0xE581F000#32))
    = some 0x00008008#32 := by decide

theorem test_strb : after (fun t => (t.mem.read32 0x03000000#32, t.reg 1))
    (given [(0, 0xAABBCCDD#32), (1, 0x03000000#32)] (arm 0xE5E10001#32)) = some (0x0000DD00#32, 0x03000001#32) := by decide

/-- `LDRT sp, [r1], #4` in IRQ mode loads the User stack pointer and leaves r13_irq. -/
theorem test_ldrt : after (fun t => (t.regs.s13.usr, t.regs.s13.irq, t.reg 1))
    (m1 (given [(1, 0x03000000#32), (13, 0x22220000#32)] (inMode modeIrq (arm 0xE4B1D004#32))))
    = some (0x44332211#32, 0x22220000#32, 0x03000004#32) := by decide

/-- R258: in FIQ mode `LDRBT r8, [r1], #4` loads `H[0][8]`, not the FIQ register. -/
theorem test_ldrbt : after (fun t => (t.regs.h[0], t.regs.hFiq[0]))
    (m1 (given [(1, 0x03000001#32), (8, 0x22220000#32)] (inMode modeFiq (arm 0xE4F18004#32))))
    = some (0x22#32, 0x22220000#32) := by decide

/-- `STRT lr, [r1], #4` in Supervisor mode stores the User link register. -/
theorem test_strt : after (fun t => t.mem.read32 0x03000000#32)
    (given [(1, 0x03000000#32), (14, 0x22220000#32)]
      (inMode modeSvc (given [(14, 0x11110000#32)] (inMode modeUsr (arm 0xE4A1E004#32))))) = some 0x11110000#32 := by decide

theorem test_strbt : after (fun t => (t.mem.read32 0x03000000#32, t.reg 1))
    (given [(0, 0x12345678#32), (1, 0x03000002#32)] (inMode modeUsr (arm 0xE4E10004#32)))
    = some (0x00780000#32, 0x03000006#32) := by decide

theorem test_ldrh : after (·.reg 0) (m2 (given [(1, 0x03000000#32)] (arm 0xE1D100B2#32))) = some 0x00008091#32 := by decide

theorem test_ldrh_odd_rotates : after (·.reg 0) (rotating (m2 (given [(1, 0x03000000#32)] (arm 0xE1D100B1#32))))
    = some 0xE30000F2#32 := by decide

theorem test_ldrsb : after (·.reg 0) (m2 (given [(1, 0x03000000#32), (2, 3#32)] (arm 0xE19100D2#32)))
    = some 0xFFFFFF80#32 := by decide

theorem test_ldrsh_post_down : after r0r1 (m2 (given [(1, 0x03000002#32)] (arm 0xE05100F2#32)))
    = some (0xFFFF8091#32, 0x03000000#32) := by decide

theorem test_ldrsh_odd_loads_a_byte : after (·.reg 0) (rotating (m2 (given [(1, 0x03000000#32)] (arm 0xE1D100F1#32))))
    = some 0xFFFFFFF2#32 := by decide

theorem test_strh_register_post : after (fun t => (t.mem.read32 0x03000000#32, t.reg 1))
    (given [(0, 0xAABBCCDD#32), (1, 0x03000000#32), (2, 0x10#32)] (arm 0xE08100B2#32))
    = some (0x0000CCDD#32, 0x03000010#32) := by decide

/-! #### Block transfers (95_test_vectors.md 1.9, 2.10) -/

/-- Memory image MB, the part around its middle. -/
def mb : State → State :=
  words [(0x02FFFFF8#32, 0xFFE#32), (0x02FFFFFC#32, 0xFFF#32), (0x03000000#32, 0x1000#32), (0x03000004#32, 0x1001#32)]

theorem test_ldmda : after (fun t => (t.reg 0, t.reg 1, t.reg 2)) (mb (given [(0, 0x03000000#32)] (arm 0xE8300006#32)))
    = some (0x02FFFFF8#32, 0xFFF#32, 0x1000#32) := by decide

/-- A loaded base stays. -/
theorem test_ldmia_base_in_list : after r0r1 (mb (given [(0, 0x03000000#32)] (arm 0xE8B00003#32)))
    = some (0x1000#32, 0x1001#32) := by decide

/-- The document's scenario: LDM with r15 and the S bit. -/
theorem test_ldm_returns : after (fun t => (t.pc, t.cpsr.toWord, t.regs.s13.svc))
    (saved .svc 0x60000030#32 (words [(0x03000000#32, 0x55#32), (0x03000004#32, 0x1237#32)]
      (given [(13, 0x03000000#32)] (arm 0xE8FD8001#32)))) = some (0x00001236#32, 0x60000030#32, 0x03000008#32) := by decide

theorem test_stmdb : after (fun t => (t.mem.read32 0x03000004#32, t.mem.read32 0x0300000C#32, t.reg 13))
    (given [(0, 0xA0#32), (1, 0xA1#32), (13, 0x03000010#32), (14, 0xAE#32)] (arm 0xE92D4003#32))
    = some (0xA0#32, 0xAE#32, 0x03000004#32) := by decide

/-- The base is not the lowest register: its new value is stored. -/
theorem test_stmia_new_base_stored : after (fun t => t.mem.read32 0x03000004#32)
    (given [(0, 0xB0#32), (1, 0x03000000#32)] (arm 0xE8A10003#32)) = some 0x03000008#32 := by decide

/-- `STMIA r0, {r8}^` in FIQ mode stores the register of the other modes. -/
theorem test_stm_user_bank : after (fun t => t.mem.read32 0x03000000#32)
    (given [(8, 0x22220008#32)] (inMode modeFiq (given [(8, 0x11110008#32), (0, 0x03000000#32)] (arm 0xE8C00100#32))))
    = some 0x11110008#32 := by decide

/-! #### Branches, software interrupts, undefined words (95_test_vectors.md 2.11) -/

theorem test_b : after (·.pc) (arm 0xEAFFFFFE#32) = some 0x00008000#32 := by decide

theorem test_bl : after (fun t => (t.pc, t.reg 14)) (arm 0xEB000002#32) = some (0x00008010#32, 0x00008004#32) := by decide

theorem test_bx_to_thumb : after (fun t => (t.pc, t.cpsr.toWord)) (given [(0, 0x00001235#32)] (arm 0xE12FFF10#32))
    = some (0x00001234#32, 0xF3#32) := by decide

/-- The entry sequence of the architecture (P4 of 95_test_vectors.md, R471, R472). -/
theorem test_swi_vectors : after (fun t => (t.pc, t.cpsr.toWord, t.reg 14, (t.spsr.get .svc).toWord))
    (flags 0b0110#4 (inMode modeUsr (arm 0xEF123456#32)))
    = some (0x00000008#32, 0x600000D3#32, 0x00008004#32, 0x600000D0#32) := by decide

/-- One report, and nothing else. -/
theorem test_undefined_arm : after (fun t => (t.pc, t.trace)) (arm 0xEE100F10#32)
    = some (0x00008004#32, [.undefined .trap 0x00008000#32 0xEE100F10#32, .fetch 0x00008000#32 .word]) := by decide

/-- The document's scenario: the store of a sign-extended halfword. -/
theorem test_undefined_store_signed : after (fun t => (t.pc, t.trace)) (arm 0xE1C011F4#32)
    = some (0x00008004#32, [.undefined .decode 0x00008000#32 0xE1C011F4#32, .fetch 0x00008000#32 .word]) := by decide

/-! #### THUMB data processing (95_test_vectors.md 2.12 to 2.14) -/

/-- The document's scenario. -/
theorem test_t_lsl_by_0 : after r0Flags (flags 0b0010#4 (given [(1, 0x80000001#32)] (thumb 0x0008#16)))
    = some (0x80000001#32, 0b1010#4) := by decide

theorem test_t_lsr_by_32 : after r0Flags (given [(1, 0x80000001#32)] (thumb 0x0808#16)) = some (0#32, 0b0110#4) := by decide

theorem test_t_asr_by_32 : after r0Flags (given [(1, 0x80000000#32)] (thumb 0x1008#16))
    = some (0xFFFFFFFF#32, 0b1010#4) := by decide

theorem test_t_add_reg : after r0Flags (given [(1, 0x7FFFFFFF#32), (2, 1#32)] (thumb 0x1888#16))
    = some (0x80000000#32, 0b1001#4) := by decide

theorem test_t_sub_reg : after r0Flags (given [(2, 1#32)] (thumb 0x1A88#16)) = some (0xFFFFFFFF#32, 0b1000#4) := by decide

theorem test_t_add_imm3 : after r0Flags (given [(1, 0xFFFFFFF9#32)] (thumb 0x1DC8#16)) = some (0#32, 0b0110#4) := by decide

theorem test_t_sub_imm3 : after r0Flags (given [(1, 0x80000000#32)] (thumb 0x1E48#16))
    = some (0x7FFFFFFF#32, 0b0011#4) := by decide

theorem test_t_mov_imm8 : after r0Flags (flags 0b1111#4 (thumb 0x20FF#16)) = some (0xFF#32, 0b0011#4) := by decide

theorem test_t_cmp_imm8 : after nzcv (given [(1, 4#32)] (thumb 0x2905#16)) = some 0b1000#4 := by decide

theorem test_t_add_imm8 : after (fun t => (t.reg 2, nzcv t)) (given [(2, 0x7FFFFFFF#32)] (thumb 0x3201#16))
    = some (0x80000000#32, 0b1001#4) := by decide

theorem test_t_sub_imm8 : after (fun t => (t.reg 3, nzcv t)) (thumb 0x3B01#16) = some (0xFFFFFFFF#32, 0b1000#4) := by decide

theorem test_t_and : after r0Flags (flags 0b0011#4 (given [(0, 0xFF00FF00#32), (1, 0x0FF00FF0#32)] (thumb 0x4008#16)))
    = some (0x0F000F00#32, 0b0011#4) := by decide

theorem test_t_eor : after r0Flags (flags 0b1011#4 (given [(0, 0xFFFFFFFF#32), (1, 0xFFFFFFFF#32)] (thumb 0x4048#16)))
    = some (0#32, 0b0111#4) := by decide

theorem test_t_lsl_by_32 : after r0Flags (given [(0, 1#32), (1, 0x20#32)] (thumb 0x4088#16)) = some (0#32, 0b0110#4) := by
  decide

theorem test_t_lsr_by_31 : after r0Flags (flags 0b0010#4 (given [(0, 0x80000000#32), (1, 0x1F#32)] (thumb 0x40C8#16)))
    = some (1#32, 0b0000#4) := by decide

theorem test_t_asr_by_200 : after r0Flags (given [(0, 0x80000000#32), (1, 0xC8#32)] (thumb 0x4108#16))
    = some (0xFFFFFFFF#32, 0b1010#4) := by decide

theorem test_t_adc : after r0Flags (flags 0b0010#4 (given [(0, 0x80000000#32)] (thumb 0x4140#16)))
    = some (1#32, 0b0011#4) := by decide

theorem test_t_sbc : after r0Flags (given [(0, 5#32), (1, 5#32)] (thumb 0x4188#16)) = some (0xFFFFFFFF#32, 0b1000#4) := by
  decide

theorem test_t_ror_by_32 : after r0Flags (given [(0, 0x80000001#32), (1, 0x20#32)] (thumb 0x41C8#16))
    = some (0x80000001#32, 0b1010#4) := by decide

theorem test_t_tst : after r0Flags (flags 0b1011#4 (given [(0, 0xF0#32), (1, 0x0F#32)] (thumb 0x4208#16)))
    = some (0xF0#32, 0b0111#4) := by decide

theorem test_t_neg : after r0Flags (given [(1, 0x80000000#32)] (thumb 0x4248#16)) = some (0x80000000#32, 0b1001#4) := by
  decide

theorem test_t_cmp : after nzcv (given [(0, 0x80000000#32), (1, 1#32)] (thumb 0x4288#16)) = some 0b0011#4 := by decide

theorem test_t_cmn : after nzcv (given [(0, 0x80000000#32), (1, 0x80000000#32)] (thumb 0x42C8#16)) = some 0b0111#4 := by
  decide

theorem test_t_orr : after r0Flags (flags 0b0111#4 (given [(0, 0x80000000#32), (1, 1#32)] (thumb 0x4308#16)))
    = some (0x80000001#32, 0b1011#4) := by decide

theorem test_t_mul : after r0Flags (flags 0b1011#4 (given [(0, 0x10000#32), (1, 0x10000#32)] (thumb 0x4348#16)))
    = some (0#32, 0b0101#4) := by decide

theorem test_t_bic : after r0Flags (flags 0b0110#4 (given [(0, 0xFFFFFFFF#32), (1, 0x7FFFFFFF#32)] (thumb 0x4388#16)))
    = some (0x80000000#32, 0b1010#4) := by decide

theorem test_t_mvn : after r0Flags (flags 0b1011#4 (given [(1, 0xFFFFFFFF#32)] (thumb 0x43C8#16)))
    = some (0#32, 0b0111#4) := by decide

theorem test_t_add_high_to_pc : after (·.pc) (given [(0, 0x101#32)] (thumb 0x4487#16)) = some 0x00008104#32 := by decide

theorem test_t_cmp_high : after nzcv (given [(8, 1#32), (9, 2#32)] (thumb 0x45C8#16)) = some 0b1000#4 := by decide

theorem test_t_mov_high_from_pc : after (·.reg 0) (thumb 0x4678#16) = some 0x00008004#32 := by decide

theorem test_t_bx_to_arm : after (fun t => (t.pc, t.cpsr.t)) (given [(0, 0x1236#32)] (thumb 0x4700#16))
    = some (0x00001234#32, false) := by decide

/-- At an address that is 2 modulo 4 bit 1 of the program counter is cleared. -/
theorem test_t_add_pc : after (·.reg 0)
    { thumb 0 with pc := 0x8002#32, mem := Memory.store [] 0x8002#32 .half 0xA001#32 } = some 0x00008008#32 := by decide

theorem test_t_add_sp : after (·.reg 0) (given [(13, 0x03007F00#32)] (thumb 0xA802#16)) = some 0x03007F08#32 := by decide

theorem test_t_sp_plus : after (·.reg 13) (given [(13, 0x03007F00#32)] (thumb 0xB004#16)) = some 0x03007F10#32 := by decide

theorem test_t_sp_minus : after (·.reg 13) (given [(13, 0x100#32)] (thumb 0xB0FF#16)) = some 0xFFFFFF04#32 := by decide

/-! #### THUMB transfers (95_test_vectors.md 2.15, 2.16) -/

/-- Memory image M3. -/
def m3 (s : State) : State := words [(0x03000008#32, 0xCAFEF00D#32)] (m2 s)

theorem test_t_ldr_pc : after (·.reg 0) (words [(0x8008#32, 0x12345678#32)]
    { thumb 0 with pc := 0x8002#32, mem := Memory.store [] 0x8002#32 .half 0x4801#32 }) = some 0x12345678#32 := by decide

theorem test_t_str_reg : after (fun t => t.mem.read32 0x03000008#32)
    (given [(0, 0xAABBCCDD#32), (1, 0x03000000#32), (2, 8#32)] (thumb 0x5088#16)) = some 0xAABBCCDD#32 := by decide

theorem test_t_strh_reg : after (fun t => t.mem.read32 0x03000000#32)
    (given [(0, 0xAABBCCDD#32), (1, 0x03000000#32), (2, 2#32)] (thumb 0x5288#16)) = some 0xCCDD0000#32 := by decide

theorem test_t_strb_reg : after (fun t => t.mem.read32 0x03000000#32)
    (given [(0, 0xAABBCCDD#32), (1, 0x03000000#32), (2, 3#32)] (thumb 0x5488#16)) = some 0xDD000000#32 := by decide

theorem test_t_ldr_reg : after (·.reg 0) (m3 (given [(1, 0x03000000#32), (2, 8#32)] (thumb 0x5888#16)))
    = some 0xCAFEF00D#32 := by decide

theorem test_t_ldrb_reg : after (·.reg 0) (m3 (given [(1, 0x03000000#32), (2, 3#32)] (thumb 0x5C88#16)))
    = some 0x80#32 := by decide

theorem test_t_ldrh_reg : after (·.reg 0) (m3 (given [(1, 0x03000000#32), (2, 2#32)] (thumb 0x5A88#16)))
    = some 0x8091#32 := by decide

theorem test_t_ldsb_reg : after (·.reg 0) (m3 (given [(1, 0x03000000#32), (2, 3#32)] (thumb 0x5688#16)))
    = some 0xFFFFFF80#32 := by decide

theorem test_t_ldsh_reg : after (·.reg 0) (m3 (given [(1, 0x03000000#32), (2, 2#32)] (thumb 0x5E88#16)))
    = some 0xFFFF8091#32 := by decide

theorem test_t_str_imm : after (fun t => t.mem.read32 0x03000004#32)
    (given [(0, 0xAABBCCDD#32), (1, 0x03000000#32)] (thumb 0x6048#16)) = some 0xAABBCCDD#32 := by decide

theorem test_t_ldr_imm_124 : after (·.reg 0)
    (words [(0x0300007C#32, 0x31313131#32)] (given [(1, 0x03000000#32)] (thumb 0x6FC8#16))) = some 0x31313131#32 := by decide

theorem test_t_strb_imm : after (fun t => t.mem.read32 0x03000000#32)
    (given [(0, 0xAABBCCDD#32), (1, 0x03000000#32)] (thumb 0x7048#16)) = some 0x0000DD00#32 := by decide

theorem test_t_ldrb_imm_31 : after (·.reg 0)
    (words [(0x0300001C#32, 0x9C000000#32)] (given [(1, 0x03000000#32)] (thumb 0x7FC8#16))) = some 0x9C#32 := by decide

theorem test_t_strh_imm : after (fun t => t.mem.read32 0x03000000#32)
    (given [(0, 0xAABBCCDD#32), (1, 0x03000000#32)] (thumb 0x8048#16)) = some 0xCCDD0000#32 := by decide

theorem test_t_ldrh_imm_62 : after (·.reg 0)
    (words [(0x0300003C#32, 0xFEDC0000#32)] (given [(1, 0x03000000#32)] (thumb 0x8FC8#16))) = some 0xFEDC#32 := by decide

theorem test_t_str_sp : after (fun t => t.mem.read32 0x03007F04#32)
    (given [(0, 0xAABBCCDD#32), (13, 0x03007F00#32)] (thumb 0x9001#16)) = some 0xAABBCCDD#32 := by decide

theorem test_t_ldr_sp_1020 : after (·.reg 0)
    (words [(0x030073FC#32, 0x255#32)] (given [(13, 0x03007000#32)] (thumb 0x98FF#16))) = some 0x255#32 := by decide

theorem test_t_push_lr : after (fun t => (t.mem.read32 0x03007EF8#32, t.mem.read32 0x03007EFC#32, t.reg 13))
    (given [(0, 0xA0#32), (13, 0x03007F00#32), (14, 0x08000125#32)] (thumb 0xB501#16))
    = some (0xA0#32, 0x08000125#32, 0x03007EF8#32) := by decide

/-- An empty list moves nothing. -/
theorem test_t_push_empty : after (fun t => (t.reg 13, t.trace)) (given [(13, 0x03007F00#32)] (thumb 0xB400#16))
    = some (0x03007F00#32, [.fetch 0x00008000#32 .half]) := by decide

theorem test_t_pop_pc : after (fun t => (t.pc, t.reg 0, t.reg 13, t.cpsr.t))
    (words [(0x03007EF8#32, 5#32), (0x03007EFC#32, 0x08000124#32)] (given [(13, 0x03007EF8#32)] (thumb 0xBD01#16)))
    = some (0x08000124#32, 5#32, 0x03007F00#32, true) := by decide

theorem test_t_stmia_new_base_stored : after (fun t => (t.mem.read32 0x03000004#32, t.reg 1))
    (given [(0, 0xB0#32), (1, 0x03000000#32)] (thumb 0xC103#16)) = some (0x03000008#32, 0x03000008#32) := by decide

theorem test_t_ldmia_base_in_list : after r0r1
    (words [(0x03000000#32, 0x1000#32), (0x03000004#32, 0x1001#32)] (given [(0, 0x03000000#32)] (thumb 0xC803#16)))
    = some (0x1000#32, 0x1001#32) := by decide

/-! #### THUMB branches (95_test_vectors.md 2.17) -/

/-- The program counter after each of the conditional branches D0 to DD, offset 3, with the flags given: where it is
taken A + 10, otherwise A + 2 (the truth table of 2.2). -/
theorem test_t_conditional_branches :
    [(0xD003#16, 0b0100#4), (0xD103#16, 0b0100#4), (0xD203#16, 0b0010#4), (0xD303#16, 0b0010#4), (0xD403#16, 0b1000#4),
      (0xD503#16, 0b1000#4), (0xD603#16, 0b0001#4), (0xD703#16, 0b0001#4), (0xD803#16, 0b0110#4), (0xD903#16, 0b0110#4),
      (0xDA03#16, 0b1000#4), (0xDB03#16, 0b1000#4), (0xDC03#16, 0b0110#4), (0xDD03#16, 0b0110#4)].map
      (fun x => after (·.pc) (flags x.2 (thumb x.1))) =
    [some 0x800A#32, some 0x8002#32, some 0x800A#32, some 0x8002#32, some 0x800A#32, some 0x8002#32, some 0x800A#32,
      some 0x8002#32, some 0x8002#32, some 0x800A#32, some 0x8002#32, some 0x800A#32, some 0x8002#32, some 0x800A#32] := by
  decide

theorem test_t_blt_backwards : after (·.pc) (flags 0b1000#4 (thumb 0xDB80#16)) = some 0x00007F04#32 := by decide

theorem test_t_b : after (·.pc) (thumb 0xE400#16) = some 0x00007804#32 := by decide

theorem test_t_bl_high : after (·.reg 14)
    { thumb 0 with pc := 0x08000100#32, mem := Memory.store [] 0x08000100#32 .half 0xF7FF#32 } = some 0x07FFF104#32 := by
  decide

theorem test_t_bl_low : after (fun t => (t.pc, t.reg 14)) (given [(14, 0x07FFF104#32)]
    { thumb 0 with pc := 0x08000102#32, mem := Memory.store [] 0x08000102#32 .half 0xFF7E#32 })
    = some (0x08000000#32, 0x08000105#32) := by decide

theorem test_t_swi_vectors : after (fun t => (t.pc, t.cpsr.t, t.reg 14)) (thumb 0xDF05#16)
    = some (0x00000008#32, false, 0x00008002#32) := by decide

theorem test_t_undefined : after (fun t => (t.pc, t.trace)) (thumb 0xDEFF#16)
    = some (0x00008002#32, [.undefined .trap 0x00008000#32 0xDEFF#32, .fetch 0x00008000#32 .half]) := by decide

/-! #### The pure functions (95_test_vectors.md 2.1 to 2.4) -/

theorem test_add_flags_both_signs :
    addFlags 0x80000000#32 0x80000000#32 false = { r := 0#32, n := false, z := true, c := true, v := true } := by decide

theorem test_sub_flags_borrow_in :
    subFlags 0#32 0xFFFFFFFF#32 false = { r := 0#32, n := false, z := true, c := false, v := false } := by decide

theorem test_shift_imm_asr : shiftImm .asr 0x80000002#32 2#5 false = (0xE0000000#32, true) := by decide

theorem test_shift_reg_ror_64 : shiftReg .ror 0x80000001#32 64#8 false = (0x80000001#32, true) := by decide

/-! #### The host (60_exceptions.md R470, R471) -/

/-- A data abort taken by the host before the next step: the link value is the address of the instruction plus 8. -/
theorem test_host_takes_data_abort :
    after (fun t => (t.pc, t.cpsr.m, t.regs.s14.abt, t.schedule))
      { arm 0xE1A00000#32 with schedule := [.host (.enter (.dataAbort 0x8000#32)), .core] }
      = some (0x00000010#32, modeAbt, 0x00008008#32, [.core]) := by decide

/-- A FIQ masks both interrupts. -/
theorem test_fiq_masks_both : after (fun t => (t.pc, t.cpsr.toWord, t.regs.s14.fiq))
    { arm 0xE1A00000#32 with cpsr := { State.reset.cpsr with i := false, f := false }, schedule := [.host (.enter .fiq)] }
    = some (0x0000001C#32, 0xD1#32, 0x00008004#32) := by decide

/-! #### The host's check: an opcode-table word is decoded, and runs as the first instruction after reset -/

theorem test_table_word_runs : decodeTableWord 32 0xE3A0100A = some (.movImm 14 false 0 1 0 0x0A) ∧
    after (·.reg 1) (State.reset.withFetchWord 32 0xE3A0100A) = some 0x0A#32 ∧
    decodeTableWord 16 0x20FF = some (.tMovImm8 0 0xFF) ∧
    after (·.reg 0) (State.reset.withFetchWord 16 0x20FF) = some 0xFF#32 := by decide

/-! ### Witnesses: states and operands that meet the hypotheses of each statement of Obligations.lean

A clause has a witness of its own where the clauses have hypotheses of their own, at the ends of their ranges. A
statement that is not named here has no hypothesis. -/

/-- The state in which an instruction executes: the program counter past it. -/
def executing (s : State) : State := advance s

theorem witness_EncodeThenDecode : (Instr.addReg 14 true 1 0 0 .lsl 2).wellFormed = true ∧
    (Instr.undMulSpace 0xE0400291#32).wellFormed = true ∧ (Instr.tUndE8 0xEFFF#16).wellFormed = true := by decide

/-- One word for each alternative, at the ends of its fields, and one beside them. -/
theorem witness_ArmUndefinedEncodings :
    [0xEC000000#32, 0xEDFFFFFF#32, 0xEE000000#32, 0xEEFFFFFF#32].map (fun w => (undefinedForm (decode (.arm w))).map (·.1))
      = [some .trap, some .trap, some .trap, some .trap] ∧
    [0xE0400090#32, 0xE1FFFF9F#32, 0xE1100090#32, 0xE03000B0#32, 0xE00000D0#32, 0xE1000000#32, 0xE12FFF20#32,
      0xE3000000#32, 0xE3200000#32, 0xE6000010#32, 0xE7FFFFFF#32].map
        (fun w => (undefinedForm (decode (.arm w))).map (·.1))
      = [some .decode, some .decode, some .decode, some .decode, some .decode, some .decode, some .decode, some .decode,
        some .decode, some .decode, some .decode] ∧
    [0xEB000000#32, 0xEF000000#32, 0xE1000090#32, 0xE01000D0#32, 0xE10F0000#32, 0xE12FFF10#32, 0xE320F000#32,
      0xE7FFFFEF#32].map (fun w => undefinedForm (decode (.arm w)))
      = [none, none, none, none, none, none, none, none] := by decide

theorem witness_ThumbUndefinedEncodings :
    [0xDE00#16, 0xDEFF#16].map (fun h => (undefinedForm (decode (.thumb h))).map (·.1)) = [some .trap, some .trap] ∧
    [0xB100#16, 0xB3FF#16, 0xB600#16, 0xBBFF#16, 0xBE00#16, 0xBFFF#16, 0xE800#16, 0xEFFF#16].map
        (fun h => (undefinedForm (decode (.thumb h))).map (·.1))
      = [some .decode, some .decode, some .decode, some .decode, some .decode, some .decode, some .decode,
        some .decode] ∧
    [0xDDFF#16, 0xDF00#16, 0xB0FF#16, 0xB400#16, 0xB5FF#16, 0xBC00#16, 0xBDFF#16, 0xE7FF#16, 0xF000#16].map
        (fun h => undefinedForm (decode (.thumb h)))
      = [none, none, none, none, none, none, none, none, none] := by decide

theorem witness_StepRunsDecodedInstruction_arm :
    let s := arm 0xE0910002#32
    s.pc.toNat % (if s.cpsr.t then 2 else 4) = 0 ∧ s.schedule = [] ∧
    decodeBytes s.cpsr.t [s.mem.byte s.pc, s.mem.byte (s.pc + 1#32), s.mem.byte (s.pc + 2#32), s.mem.byte (s.pc + 3#32)]
      = .ok (.addReg 14 true 1 0 0 .lsl 2, []) := ⟨by decide, rfl, rfl⟩

theorem witness_StepRunsDecodedInstruction_thumb :
    let s := { thumb 0x1E48#16 with schedule := [.core, .core] }
    s.pc.toNat % (if s.cpsr.t then 2 else 4) = 0 ∧ s.schedule = .core :: [.core] ∧
    decodeBytes s.cpsr.t [s.mem.byte s.pc, s.mem.byte (s.pc + 1#32), s.mem.byte (s.pc + 2#32), s.mem.byte (s.pc + 3#32)]
      = .ok (.tSubImm3 1 1 0, [0#8, 0#8]) := ⟨by decide, rfl, rfl⟩

/-- ARM state at 2 modulo 4, THUMB state at an odd address. -/
theorem witness_StepRunsDecodedInstruction_misaligned :
    (let s := { arm 0 with pc := 0x8002#32 }
     coreTurn s = true ∧ s.pc.toNat % (if s.cpsr.t then 2 else 4) ≠ 0) ∧
    (let s := { thumb 0 with pc := 0xFFFFFFFF#32 }
     coreTurn s = true ∧ s.pc.toNat % (if s.cpsr.t then 2 else 4) ≠ 0) := by decide

theorem witness_StepRunsDecodedInstruction_host :
    { arm 0 with schedule := [.host .reset, .core] }.schedule = .host .reset :: [.core] := rfl

/-- EQ with Z clear; and condition code 15. -/
theorem witness_FailedConditionOnlyAdvances :
    (let s := arm 0x00910002#32
     s.schedule = [] ∧ s.cpsr.t = false ∧ s.pcAligned = true ∧
      condPass ((s.mem.read32 s.pc).extractLsb' 28 4) s.cpsr = false) ∧
    (let s := arm 0xF0910002#32
     s.schedule = [] ∧ s.cpsr.t = false ∧ s.pcAligned = true ∧ (s.mem.read32 s.pc).extractLsb' 28 4 = 0b1111#4) := by
  decide

theorem witness_InstructionsThatDoNotBranchAdvance :
    (let s := arm 0xE0910002#32
     coreTurn s = true ∧ mayBranch (nextInstr s) = false ∧ ∃ t, step s = .next t) ∧
    (let s := thumb 0x1E48#16
     coreTurn s = true ∧ mayBranch (nextInstr s) = false ∧ ∃ t, step s = .next t) :=
  ⟨⟨rfl, rfl, _, rfl⟩, ⟨rfl, rfl, _, rfl⟩⟩

/-- An addition; and a software interrupt whose service is the architecture's entry. -/
theorem witness_OnlyStoresChangeMemory :
    (storesToMemory (.addImm 14 true 1 0 0 1) = false ∧ isSwi (.addImm 14 true 1 0 0 1) = false ∧
      ∃ t, exec (.addImm 14 true 1 0 0 1) (executing (arm 0)) = .next t) ∧
    (storesToMemory (.swi 14 5) = false ∧ (executing (arm 0)).params.swi ≠ .external ∧
      ∃ t, exec (.swi 14 5) (executing (arm 0)) = .next t) :=
  ⟨⟨rfl, rfl, _, rfl⟩, ⟨rfl, by decide, _, rfl⟩⟩

theorem witness_OnlyFlagWritersChangeFlags :
    (writesFlags (.addImm 14 false 1 0 0 1) = false ∧ isSwi (.addImm 14 false 1 0 0 1) = false ∧
      ∃ t, exec (.addImm 14 false 1 0 0 1) (executing (arm 0)) = .next t) ∧
    (writesFlags (.tSwi 5) = false ∧ (executing (thumb 0)).params.swi ≠ .external ∧
      ∃ t, exec (.tSwi 5) (executing (thumb 0)) = .next t) :=
  ⟨⟨rfl, rfl, _, rfl⟩, ⟨rfl, by decide, _, rfl⟩⟩

theorem witness_OnlyStatusWritersChangeControlBits :
    (isSwi (.subImm 14 true 1 0 0 1) = false ∧ writesControl (.subImm 14 true 1 0 0 1) = false ∧
      writesSaved (.subImm 14 true 1 0 0 1) = false ∧ ∃ t, exec (.subImm 14 true 1 0 0 1) (executing (arm 0)) = .next t) ∧
    (isSwi (.bx 14 0) = false ∧ writesSaved (.bx 14 0) = false ∧ ∃ t, exec (.bx 14 0) (executing (arm 0)) = .next t) :=
  ⟨⟨rfl, rfl, rfl, _, rfl⟩, ⟨rfl, rfl, _, rfl⟩⟩

theorem witness_EveryInstructionCompletes : State.reset.params.misaligned = .rotate ∧ State.reset.params.swi ≠ .absent ∧
    State.reset.pcAligned = true := by decide

/-- The right-hand sides of the two equivalences: LDR of an odd address under `refuse`, and SWI without a service. -/
theorem witness_RefusalsAreExactly :
    (let s := given [(1, 0x03000001#32)] (executing (arm 0))
     condPass (condOf (.ldrImmPre 14 true false 1 0 0)) s.cpsr = true ∧ s.params.misaligned = .refuse ∧
      ∃ a n, accessOf s (.ldrImmPre 14 true false 1 0 0) = some (a, n) ∧ ¬ Aligned a n) ∧
    (let s := { arm 0 with params := { misaligned := .refuse, swi := .absent, resetPc := 0 } }
     condPass (condOf (.swi 14 0)) s.cpsr = true ∧ isSwi (.swi 14 0) = true ∧ s.params.swi = .absent) :=
  ⟨⟨rfl, rfl, 0x03000001#32, .word, rfl, by decide⟩, ⟨rfl, rfl, rfl⟩⟩

/-- Two states that differ in a register, a flag and a saved status register, reset equally often. -/
theorem witness_HostResetSetsDefinedFieldsOnly :
    let s := arm 0
    let s' := saved .irq 0x10#32 (flags 0b1111#4 (given [(0, 1#32)] (arm 0)))
    s.resets = s'.resets ∧ s.regs ≠ s'.regs ∧ s.cpsr ≠ s'.cpsr ∧ s.spsr ≠ s'.spsr := by decide

/-- A store, as a step and as an instruction. -/
theorem witness_StepKeepsMemoryCanonical :
    (let s := given [(1, 0x03000000#32)] (arm 0xE5810004#32)
     Canonical s ∧ ∃ t, step s = .next t) ∧
    (let s := given [(1, 0x03000000#32)] (executing (arm 0xE5810004#32))
     Canonical s ∧ ∃ t, exec (.strImmPre 14 true false 1 0 4) s = .next t) :=
  ⟨⟨rfl, _, rfl⟩, ⟨rfl, _, rfl⟩⟩

theorem witness_StepKeepsPcAligned :
    (PcSound (arm 0xE12FFF10#32) ∧ ∃ t, step (arm 0xE12FFF10#32) = .next t) ∧
    PcSound { thumb 0x4700#16 with schedule := [.host .reset, .core] } :=
  ⟨⟨⟨rfl, by decide, by decide, by simp [arm, State.reset]⟩, _, rfl⟩, ⟨rfl, by decide, by decide, by simp⟩⟩

/-- MSR of all fields in User mode; and a software interrupt without a service. -/
theorem witness_UserModeIsConfined :
    (let s := inMode modeUsr (arm 0xE129F001#32)
     coreTurn s = true ∧ s.cpsr.m = 0b10000#5 ∧ isSwi (nextInstr s) = false ∧ ∃ t, step s = .next t) ∧
    (let s := { inMode modeUsr (arm 0x0F000000#32) with params := { misaligned := .refuse, swi := .absent, resetPc := 0 } }
     coreTurn s = true ∧ s.cpsr.m = 0b10000#5 ∧ isSwi (nextInstr s) = true ∧ s.params.swi = .absent ∧
      ∃ t, step s = .next t) :=
  ⟨⟨rfl, rfl, rfl, _, rfl⟩, ⟨rfl, rfl, rfl, rfl, _, rfl⟩⟩

/-- The first and the last even code below 14. -/
theorem witness_ConditionCodes : (0#4).toNat % 2 = 0 ∧ (0#4).toNat < 14 ∧ (12#4).toNat % 2 = 0 ∧ (12#4).toNat < 14 := by
  decide

/-- The ends of the bit numbers, of the amounts that are not 0, and of the rotate field. -/
theorem witness_ShiftByImmediate : 0 < 32 ∧ 31 < 32 ∧ (1#5 ≠ 0#5) ∧ (31#5 ≠ 0#5) ∧
    (shiftImm .lsl 1#32 31#5 false).1.getLsbD 31 = true ∧ (rotatedImm 15#4 1#8 false).1 = 4#32 ∧
    (rotatedImm 0#4 1#8 true) = (1#32, true) := by decide

/-- The amounts 0, 1, 31, 32, 33, 64 and 255, each under the clauses it meets and no other. -/
theorem witness_ShiftByRegister :
    [0#8, 1#8, 31#8, 32#8, 33#8, 64#8, 255#8].map
      (fun n => (decide (n = 0#8), decide (0 < n.toNat ∧ n.toNat < 32), decide (n.toNat = 32), decide (32 < n.toNat),
        decide (32 ≤ n.toNat)))
      = [(true, false, false, false, false), (false, true, false, false, false), (false, true, false, false, false),
        (false, false, true, false, true), (false, false, false, true, true), (false, false, false, true, true),
        (false, false, false, true, true)] := by decide

/-- r8 and r13 in FIQ mode and in an invalid mode: the storage differs, and a write in one is not read in the other. -/
theorem witness_BanksAreIndependent : (8#4 ≠ 15#4) ∧ (13#4 ≠ 15#4) ∧
    physReg 0b10001#5 8#4 ≠ physReg 0b00101#5 8#4 ∧ physReg 0b10000#5 13#4 = physReg 0b00101#5 13#4 := by decide

theorem witness_CanonicalMemoriesAreEqual :
    Memory.wf [(3, 1#8), (7, 2#8)] = true ∧ ∀ a : Word, Memory.byte [(3, 1#8), (7, 2#8)] a = Memory.byte [(3, 1#8), (7, 2#8)] a :=
  ⟨by decide, fun _ => rfl⟩

/-- Aligned and misaligned halfwords, at the ends of the address space. -/
theorem witness_LoadedValues : Aligned 0#32 .half ∧ Aligned 0xFFFFFFFE#32 .half ∧ ¬ Aligned 1#32 .half ∧
    ¬ Aligned 0xFFFFFFFF#32 .half := by decide

theorem witness_ExceptionEntry : ArchException.reset = .reset ∧ ArchException.undefined ≠ .reset ∧
    ArchException.dataAbort 0xFFFFFFFC#32 ≠ .reset ∧ ArchException.fiq ≠ .reset := by decide

/-- One return for each exception but reset. -/
theorem witness_ReturnUndoesEntry (s : State) (a : Word) :
    (∃ i resume, i = Instr.movReg 14 true 0 15 0 .lsl 14 ∧ resume = s.pc) ∧
    (∃ i resume, i = Instr.subImm 14 true 14 15 0 4 ∧ resume = s.pc) ∧
    (∃ i resume, i = Instr.subImm 14 true 14 15 0 4 ∧ resume = a) ∧
    (∃ i resume, i = Instr.subImm 14 true 14 15 0 8 ∧ resume = a) :=
  ⟨⟨_, _, rfl, rfl⟩, ⟨_, _, rfl, rfl⟩, ⟨_, _, rfl, rfl⟩, ⟨_, _, rfl, rfl⟩⟩

/-- Both forms, at the ends of the comment; and the three services. -/
theorem witness_SoftwareInterrupts :
    (∃ c, Instr.swi 14 0xFFFFFF#24 = .swi c 0xFFFFFF#24 ∧ condPass c (executing (arm 0)).cpsr = true) ∧
    (∃ b : BitVec 8, Instr.tSwi 0xFF#8 = .tSwi b ∧ (0xFF#24).toNat = b.toNat) ∧
    (executing (arm 0)).params.swi = .vectored ∧
    { arm 0 with params := { misaligned := .refuse, swi := .absent, resetPc := 0 } }.params.swi = .absent ∧
    { arm 0 with params := { misaligned := .refuse, swi := .external, resetPc := 0 } }.params.swi = .external :=
  ⟨⟨14, rfl, rfl⟩, ⟨0xFF#8, rfl, rfl⟩, rfl, rfl, rfl⟩

theorem witness_UndefinedReportsAndContinues :
    (undefinedForm (.undCopOp 0xEE100F10#32) = some (.trap, .arm 0xEE100F10#32) ∧
      (executing (arm 0xEE100F10#32)).cpsr.t = false ∧ (executing (arm 0xEE100F10#32)).pc = 0x8000#32 + 4#32 ∧
      condPass ((0xEE100F10#32).extractLsb' 28 4) (executing (arm 0xEE100F10#32)).cpsr = true) ∧
    (undefinedForm (.tUndB1 0xB100#16) = some (.decode, .thumb 0xB100#16) ∧
      (executing (thumb 0xB100#16)).cpsr.t = true ∧ (executing (thumb 0xB100#16)).pc = 0x8000#32 + 2#32) :=
  ⟨⟨rfl, rfl, rfl, rfl⟩, ⟨rfl, rfl, rfl⟩⟩

/-- An ordinary destination; and `MOVS pc, lr`. -/
theorem witness_LogicalDataProcessing :
    (∃ f r, dpForm (.andImm 14 true 1 0 0 3) = some f ∧
      logicalValue ((executing (arm 0)).reg f.rn) (f.operand.value (executing (arm 0))).1 f.op = some r ∧
      condPass f.c (executing (arm 0)).cpsr = true) ∧
    (∃ f r, dpForm (.movReg 14 true 0 15 0 .lsl 14) = some f ∧
      logicalValue ((executing (arm 0)).reg f.rn) (f.operand.value (executing (arm 0))).1 f.op = some r ∧
      condPass f.c (executing (arm 0)).cpsr = true ∧ f.rd = 15#4) :=
  ⟨⟨_, _, rfl, rfl, rfl⟩, ⟨_, _, rfl, rfl, rfl, rfl⟩⟩

theorem witness_ArithmeticDataProcessing :
    (∃ f x, dpForm (.sbcRsr 14 true 1 0 2 .ror 3) = some f ∧
      arithValue ((executing (arm 0)).reg f.rn) (f.operand.value (executing (arm 0))).1 (executing (arm 0)).cpsr.c f.op
        = some x ∧ condPass f.c (executing (arm 0)).cpsr = true) ∧
    (∃ f x, dpForm (.subImm 14 true 14 15 0 4) = some f ∧
      arithValue ((executing (arm 0)).reg f.rn) (f.operand.value (executing (arm 0))).1 (executing (arm 0)).cpsr.c f.op
        = some x ∧ condPass f.c (executing (arm 0)).cpsr = true ∧ f.rd = 15#4) :=
  ⟨⟨_, _, rfl, rfl, rfl⟩, ⟨_, _, rfl, rfl, rfl, rfl⟩⟩

theorem witness_TestsWriteOnlyFlags :
    ∃ f p, dpForm (.cmpImm 14 1 15 0 1) = some f ∧
      testStatus ((executing (arm 0)).reg f.rn) (f.operand.value (executing (arm 0))).1
        (f.operand.value (executing (arm 0))).2 (executing (arm 0)).cpsr f.op = some p ∧
      condPass f.c (executing (arm 0)).cpsr = true := ⟨_, _, rfl, rfl, rfl⟩

/-- A mode with a saved register, and one without. -/
theorem witness_MrsReadsStatus : condPass 14 (executing (arm 0)).cpsr = true ∧
    spsrBank (executing (arm 0)).cpsr.m = some .svc ∧ spsrBank (inMode modeSys (arm 0)).cpsr.m = none := by decide

/-- Both operand forms. -/
theorem witness_MsrWritesSelectedFields :
    (∃ ign rm, Instr.msrReg 14 true true 0 true 1 = .msrReg 14 true true ign true rm ∧
      0#32 = (executing (arm 0)).reg rm) ∧
    (∃ ign rot b, Instr.msrImm 14 false true 0 false 4 0xF0 = .msrImm 14 false true ign false rot b ∧
      0xF0000000#32 = (rotatedImm rot b (executing (arm 0)).cpsr.c).1) ∧
    condPass 14 (executing (arm 0)).cpsr = true :=
  ⟨⟨0, 1, rfl, rfl⟩, ⟨0, 4, 0xF0, rfl, rfl⟩, rfl⟩

/-- The full write of the CPSR and of the SPSR in Supervisor mode; and the flags-only write in User mode. -/
theorem witness_MsrThenMrs :
    (∃ t u, exec (.msrReg 14 false true 0 true 1) (executing (arm 0)) = .next t ∧ exec (.mrs 14 false 2) t = .next u ∧
      decide ((executing (arm 0)).cpsr.m ≠ 0b10000#5) = true) ∧
    (∃ t u, exec (.msrReg 14 true true 0 true 1) (executing (arm 0)) = .next t ∧ exec (.mrs 14 true 2) t = .next u ∧
      (spsrBank (executing (arm 0)).cpsr.m).isSome = true) ∧
    (∃ t u, exec (.msrReg 14 false true 0 false 1) (inMode modeUsr (executing (arm 0))) = .next t ∧
      exec (.mrs 14 false 2) t = .next u) :=
  ⟨⟨_, _, rfl, rfl, rfl⟩, ⟨_, _, rfl, rfl, rfl⟩, ⟨_, _, rfl, rfl⟩⟩

theorem witness_Multiply :
    (∃ ign, Instr.mul 14 true 0 0 2 1 = .mul 14 true 0 ign 2 1 ∧ 0 = 0) ∧
    (∃ rn, Instr.mla 14 true 0 3 2 1 = .mla 14 true 0 rn 2 1 ∧ 0 = ((executing (arm 0)).reg rn).toNat) ∧
    condPass 14 (executing (arm 0)).cpsr = true := ⟨⟨0, rfl, rfl⟩, ⟨3, rfl, rfl⟩, rfl⟩

/-- The four forms on r2 = r3 = 0xFFFFFFFF and an accumulator that wraps. -/
theorem witness_MultiplyLong :
    let s := given [(0, 0xFFFFFFFF#32), (1, 0xFFFFFFFF#32), (2, 0xFFFFFFFF#32), (3, 0xFFFFFFFF#32)] (executing (arm 0))
    let acc := (s.reg 1).toNat * 2 ^ 32 + (s.reg 0).toNat
    (0xFFFFFFFE00000001#64).toNat = (s.reg 2).toNat * (s.reg 3).toNat ∧
    (0xFFFFFFFE00000000#64).toNat = ((s.reg 2).toNat * (s.reg 3).toNat + acc) % 2 ^ 64 ∧
    (1#64).toInt = (s.reg 2).toInt * (s.reg 3).toInt ∧
    0#64 = BitVec.ofInt 64 ((s.reg 2).toInt * (s.reg 3).toInt + acc) ∧ condPass 14 s.cpsr = true := by decide

/-- A word at an aligned address under `refuse`, a byte at an odd one, and a word at an odd address under `rotate`. -/
theorem witness_Swap :
    Aligned ((given [(2, 0x03000000#32)] (executing (arm 0))).reg 2) LoadKind.word.width ∧
    Aligned ((given [(2, 0x03000003#32)] (executing (arm 0))).reg 2) LoadKind.byte.width ∧
    (¬ Aligned ((given [(2, 0x03000003#32)] (executing (arm 0))).reg 2) LoadKind.word.width ∧
      (rotating (executing (arm 0))).params.misaligned = .rotate) ∧
    condPass 14 (executing (arm 0)).cpsr = true := by decide

theorem witness_SingleLoads :
    (∃ f, singleForm (.ldrImmPre 14 true true 1 0 4) = some f ∧ f.access = .load .word ∧
      condPass f.c (executing (arm 0)).cpsr = true ∧ Aligned (f.addr (executing (arm 0))) LoadKind.word.width) ∧
    (∃ f, singleForm (.ldrbtReg 14 false 1 8 1 .ror 2) = some f ∧ f.access = .load .byte ∧
      condPass f.c (executing (arm 0)).cpsr = true ∧ Aligned (f.addr (executing (arm 0))) LoadKind.byte.width) ∧
    (∃ f, singleForm (.ldrImmPre 14 true true 1 0 3) = some f ∧ f.access = .load .word ∧
      ¬ Aligned (f.addr (executing (arm 0))) LoadKind.word.width ∧
      (rotating (executing (arm 0))).params.misaligned = .rotate) :=
  ⟨⟨_, rfl, rfl, rfl, by decide⟩, ⟨_, rfl, rfl, rfl, by decide⟩, ⟨_, rfl, rfl, by decide, rfl⟩⟩

/-- A store of r15, and a forced-user store. -/
theorem witness_SingleStores :
    (∃ f, singleForm (.strImmPre 14 true false 1 15 4) = some f ∧ f.access = .store .word ∧
      condPass f.c (executing (arm 0)).cpsr = true ∧ Aligned (f.addr (executing (arm 0))) .word) ∧
    (∃ f, singleForm (.strtReg 14 false 1 13 1 .ror 2) = some f ∧ f.access = .store .word ∧
      condPass f.c (executing (arm 0)).cpsr = true ∧ Aligned (f.addr (executing (arm 0))) .word) :=
  ⟨⟨_, rfl, rfl, rfl, by decide⟩, ⟨_, rfl, rfl, rfl, by decide⟩⟩

theorem witness_HalfwordAndSignedTransfers :
    (∃ f, halfForm (.ldrshImmPost 14 false 1 0 0 2) = some f ∧ condPass f.c (executing (arm 0)).cpsr = true ∧
      Aligned (f.addr (executing (arm 0))) f.access.width ∧ f.access = .load .signedHalf) ∧
    (∃ f, halfForm (.strhRegPre 14 true true 1 0 0 2) = some f ∧ condPass f.c (executing (arm 0)).cpsr = true ∧
      Aligned (f.addr (executing (arm 0))) f.access.width ∧ f.access = .store .half) ∧
    (∃ f, halfForm (.ldrhImmPre 14 true false 1 0 0 1) = some f ∧ condPass f.c (executing (arm 0)).cpsr = true ∧
      ¬ Aligned (f.addr (executing (arm 0))) f.access.width ∧
      (rotating (executing (arm 0))).params.misaligned = .rotate) :=
  ⟨⟨_, rfl, rfl, by decide, rfl⟩, ⟨_, rfl, rfl, by decide, rfl⟩, ⟨_, rfl, rfl, by decide, rfl⟩⟩

/-- The full list and the empty one, aligned; and a misaligned start under `rotate`. -/
theorem witness_LoadMultiple :
    condPass 14 (executing (arm 0)).cpsr = true ∧
    Aligned (blockStart true false ((executing (arm 0)).reg 1) (regsOf 0xFFFF#16).length) .word ∧
    Aligned (blockStart false true ((executing (arm 0)).reg 1) (regsOf 0#16).length) .word ∧
    (¬ Aligned (blockStart false true ((given [(1, 0xFFFFFFFF#32)] (executing (arm 0))).reg 1) (regsOf 1#16).length) .word ∧
      (rotating (executing (arm 0))).params.misaligned = .rotate) := by decide

theorem witness_StoreMultiple :
    condPass 14 (executing (arm 0)).cpsr = true ∧
    Aligned (blockStart true true ((executing (arm 0)).reg 1) (regsOf 0xFFFF#16).length) .word ∧
    (¬ Aligned (blockStart false false ((given [(1, 2#32)] (executing (arm 0))).reg 1) (regsOf 1#16).length) .word ∧
      (rotating (executing (arm 0))).params.misaligned = .rotate) := by decide

theorem witness_ArmBranches :
    let s := executing (arm 0xEA000002#32)
    s.cpsr.t = false ∧ s.pc = 0x8000#32 + 4#32 ∧ condPass 14 s.cpsr = true := by decide

theorem witness_ThumbShiftsAndMultiply :
    (∃ rd r c, thumbShiftForm (executing (thumb 0)) (.tLsrImm 0 1 0) = some (rd, r, c)) ∧
    (∃ rd r c, thumbShiftForm (executing (thumb 0)) (.tMul 1 0) = some (rd, r, c)) := ⟨⟨_, _, _, rfl⟩, ⟨_, _, _, rfl⟩⟩

theorem witness_ThumbLogical : ∃ rd r, thumbLogicalForm (executing (thumb 0)) (.tBic 1 0) = some (rd, r) := ⟨_, _, rfl⟩

theorem witness_ThumbArithmetic : ∃ rd x, thumbArithForm (executing (thumb 0)) (.tNeg 1 0) = some (rd, x) := ⟨_, _, rfl⟩

theorem witness_ThumbComparisons : ∃ x, thumbCompareForm (executing (thumb 0)) (.tCmpHi true true 1 0) = some x := ⟨_, rfl⟩

/-- An ordinary destination, and r15. -/
theorem witness_ThumbMovesAndExchange :
    (∃ d v, thumbMoveForm (executing (thumb 0)) (.tAddSp 0 2) = some (d, v)) ∧
    (∃ v, thumbMoveForm (executing (thumb 0)) (.tMovHi true true 6 7) = some (15#4, v)) := ⟨⟨_, _, rfl⟩, ⟨_, rfl⟩⟩

theorem witness_ThumbLoads :
    (∃ rd a, thumbTransferForm (executing (thumb 0)) (.tLdrImm 1 1 0) = some (.load .word, rd, a) ∧
      Aligned a LoadKind.word.width) ∧
    (∃ rd a, thumbTransferForm (executing (thumb 0)) (.tLdrbImm 31 1 0) = some (.load .byte, rd, a) ∧
      Aligned a LoadKind.byte.width) ∧
    (rotating (executing (thumb 0))).params.misaligned = .rotate :=
  ⟨⟨_, _, rfl, by decide⟩, ⟨_, _, rfl, by decide⟩, rfl⟩

theorem witness_ThumbStores :
    (∃ rd a, thumbTransferForm (executing (thumb 0)) (.tStrSp 0 1) = some (.store .word, rd, a) ∧ Aligned a .word) ∧
    (∃ rd a, thumbTransferForm (executing (thumb 0)) (.tStrhImm 31 1 0) = some (.store .half, rd, a) ∧ Aligned a .half) :=
  ⟨⟨_, _, rfl, by decide⟩, ⟨_, _, rfl, by decide⟩⟩

/-- PUSH of all registers and r14, PUSH of nothing, and POP; and a misaligned stack under `rotate`. -/
theorem witness_PushAndPop :
    let s := given [(13, 0x03007F00#32)] (executing (thumb 0))
    Aligned (s.reg 13 - BitVec.ofNat 32 (4 * ((regsOf ((0xFF#8).setWidth 16)).length + true.toNat))) .word ∧
    Aligned (s.reg 13 - BitVec.ofNat 32 (4 * ((regsOf ((0#8).setWidth 16)).length + false.toNat))) .word ∧
    Aligned (s.reg 13) .word ∧
    (¬ Aligned ((given [(13, 0x03007F02#32)] s).reg 13) .word ∧ (rotating s).params.misaligned = .rotate) := by decide

theorem witness_ThumbMultipleTransfers :
    let s := given [(0, 0x03000000#32)] (executing (thumb 0))
    Aligned (s.reg (lowReg 0)) .word ∧
    (¬ Aligned ((given [(0, 1#32)] s).reg (lowReg 0)) .word ∧ (rotating s).params.misaligned = .rotate) := by decide

/-- The first and the last of the conditional branches. -/
theorem witness_ThumbBranches :
    let s := executing (thumb 0xD0FE#16)
    s.cpsr.t = true ∧ s.pc = 0x8000#32 + 2#32 ∧ thumbCondForm (.tBeq 0xFE) = some (0#4, 0xFE#8) ∧
    thumbCondForm (.tBle 0x7F) = some (13#4, 0x7F#8) := ⟨rfl, rfl, rfl, rfl⟩

end Sys2Proof.Tests
end

/-! # Proofs: the status, the program counter and the register banks

What every instruction does to the mode, the masks, T, the saved status registers and the alignment of the program
counter is said once, for the operations that the instructions share (`StatusEffect`, `exec_yields`). -/

namespace Sys2Proof.Machine

/-! ### The alignment of the program counter -/

theorem pcAligned_iff (s : State) : s.pcAligned = true ↔ s.pc.toNat % (if s.cpsr.t then 2 else 4) = 0 := by
  unfold State.pcAligned
  cases s.cpsr.t <;> simp [and_one_eq_zero, and_three_eq_zero]

/-- The alignment depends on the program counter and T alone. -/
theorem pcAligned_congr {s t : State} (hpc : t.pc = s.pc) (ht : t.cpsr.t = s.cpsr.t) : t.pcAligned = s.pcAligned := by
  rw [State.pcAligned, hpc, ht, State.pcAligned]

/-- Every branch is masked (R39, D9). -/
@[simp] theorem pcAligned_branch (s : State) (v : Word) : (s.branch v).pcAligned = true := by
  rw [pcAligned_iff, State.cpsr_branch, State.pc_branch]
  cases s.cpsr.t
  · simp only [Bool.false_eq_true, if_false, toNat_and_mask2]
    omega
  · simp only [if_true, toNat_and_mask1]
    omega

theorem pcAligned_writeAt {s : State} (q : Option PReg) (v : Word) (h : s.pcAligned = true) :
    (s.writeAt q v).pcAligned = true := by
  cases q with
  | none => exact pcAligned_branch s v
  | some p => exact h

theorem pcAligned_advance {s : State} (h : s.pcAligned = true) : (advance s).pcAligned = true := by
  rw [pcAligned_iff] at h ⊢
  rw [State.pc_advance, State.cpsr_advance, State.size]
  cases ht : s.cpsr.t <;> simp_all [BitVec.toNat_add]

/-- A multiple of 4 is aligned in either state, so a change of the status register in ARM state keeps the alignment. -/
theorem pcAligned_withCpsr_of_arm {s : State} (p : Psr) (ht : s.cpsr.t = false) (h : s.pcAligned = true) :
    (s.withCpsr p).pcAligned = true := by
  rw [pcAligned_iff] at h ⊢
  rw [State.pc_withCpsr, State.cpsr_withCpsr]
  simp only [ht, Bool.false_eq_true, if_false] at h
  split <;> omega

/-! ### What an operation does to the status -/

/-- Two status registers agree on the mode, the masks and T. -/
def SameControl (p q : Psr) : Prop := q.m = p.m ∧ q.i = p.i ∧ q.f = p.f ∧ q.t = p.t

theorem SameControl.refl (p : Psr) : SameControl p p := ⟨rfl, rfl, rfl, rfl⟩

theorem SameControl.trans {p q r : Psr} : SameControl p q → SameControl q r → SameControl p r :=
  fun ⟨hm, hi, hf, ht⟩ ⟨hm', hi', hf', ht'⟩ => ⟨hm'.trans hm, hi'.trans hi, hf'.trans hf, ht'.trans ht⟩

theorem SameControl.thumb {p q : Psr} : SameControl p q → q.t = p.t := fun ⟨_, _, _, ht⟩ => ht

/-- What an operation that leads from `s` to `t` does to the status: it changes the control bits of the CPSR only if
`control`, the saved status registers only if `saved`, the parameters and the schedule never; and it keeps the program
counter aligned, if it is an MSR (`msr`) only from ARM state. -/
structure StatusEffect (control saved msr : Bool) (s t : State) : Prop where
  control : control = false → SameControl s.cpsr t.cpsr
  saved : saved = false → t.spsr = s.spsr
  params : t.params = s.params
  schedule : t.schedule = s.schedule
  aligned : (msr = true → s.cpsr.t = false) → s.pcAligned = true → t.pcAligned = true

/-- The operation changes nothing of the status but the flags. -/
abbrev KeepsStatus (s t : State) : Prop := StatusEffect false false false s t

/-- An operation that leaves the program counter alone. -/
theorem StatusEffect.of_pc {s t : State} (hc : SameControl s.cpsr t.cpsr) (hs : t.spsr = s.spsr)
    (hp : t.params = s.params) (hsch : t.schedule = s.schedule) (hpc : t.pc = s.pc) : KeepsStatus s t :=
  ⟨fun _ => hc, fun _ => hs, hp, hsch, fun _ h => (pcAligned_congr hpc hc.thumb).trans h⟩

theorem StatusEffect.refl {control saved msr : Bool} (s : State) : StatusEffect control saved msr s s :=
  ⟨fun _ => .refl _, fun _ => rfl, rfl, rfl, fun _ h => h⟩

theorem StatusEffect.load (s : State) (k : LoadKind) (a : Word) : KeepsStatus s (s.load k a) :=
  .of_pc (.refl _) rfl rfl rfl rfl

theorem StatusEffect.store (s : State) (a : Word) (n : Width) (v : Word) : KeepsStatus s (s.store a n v) :=
  .of_pc (.refl _) rfl rfl rfl rfl

theorem StatusEffect.emit (s : State) (e : Event) : KeepsStatus s (s.emit e) := .of_pc (.refl _) rfl rfl rfl rfl

theorem StatusEffect.withCpsr {s : State} {p : Psr} (h : SameControl s.cpsr p) : KeepsStatus s (s.withCpsr p) :=
  .of_pc h rfl rfl rfl rfl

theorem StatusEffect.writeAt (s : State) (q : Option PReg) (v : Word) : KeepsStatus s (s.writeAt q v) where
  control _ := by rw [State.cpsr_writeAt]; exact .refl _
  saved _ := State.spsr_writeAt s q v
  params := State.params_writeAt s q v
  schedule := State.schedule_writeAt s q v
  aligned _ := pcAligned_writeAt q v

theorem StatusEffect.setReg (s : State) (i : Reg) (v : Word) : KeepsStatus s (s.setReg i v) := .writeAt s _ v

theorem StatusEffect.branch (s : State) (v : Word) : KeepsStatus s (s.branch v) := .writeAt s none v

/-- An operation that changes nothing but the flags, and then another one. -/
theorem StatusEffect.trans {control saved msr : Bool} {s t u : State} (h : KeepsStatus s t)
    (h' : StatusEffect control saved msr t u) : StatusEffect control saved msr s u where
  control hc := (h.control rfl).trans (h'.control hc)
  saved hs := (h'.saved hs).trans (h.saved rfl)
  params := h'.params.trans h.params
  schedule := h'.schedule.trans h.schedule
  aligned hm ha := h'.aligned (fun e => (h.control rfl).thumb.trans (hm e)) (h.aligned nofun ha)

/-- An operation that leaves a saved status alone and ends in a branch, whatever it writes to the CPSR. -/
theorem StatusEffect.of_branch {s t : State} (v : Word) (hs : t.spsr = s.spsr) (hp : t.params = s.params)
    (hsch : t.schedule = s.schedule) : StatusEffect true false false s (t.branch v) :=
  ⟨nofun, fun _ => hs, hp, hsch, fun _ _ => pcAligned_branch t v⟩

/-! ### How an instruction ends -/

/-- A result whose next state, if there is one, has this effect on the status; a refusal is one of the two that `exec`
may give. -/
def Yields (control saved msr : Bool) (s : State) : Result → Prop
  | .next t => StatusEffect control saved msr s t
  | .refused r => r = .misalignedAccess ∨ r = .noSwiService
  | .fault _ => True

theorem Yields.whenPassed {control saved msr : Bool} {s : State} {o : Result} (c : CondCode)
    (h : Yields control saved msr s o) : Yields control saved msr s (whenPassed c s o) := by
  unfold Machine.whenPassed
  split
  · exact h
  · exact .refl s

theorem Yields.whenAdmitted {control saved msr : Bool} {s : State} {o : Result} (a : Word) (n : Width)
    (h : Yields control saved msr s o) : Yields control saved msr s (whenAdmitted s a n o) := by
  unfold Machine.whenAdmitted
  split
  · exact h
  · exact .inl rfl

/-! ### Data processing, multiplies and PSR transfer -/

theorem sameControl_setNZ (p : Psr) (r : Word) : SameControl p (p.setNZ r) := ⟨rfl, rfl, rfl, rfl⟩
theorem sameControl_setNZC (p : Psr) (r : Word) (c : Bool) : SameControl p (p.setNZC r c) := ⟨rfl, rfl, rfl, rfl⟩
theorem sameControl_setNZCV (p : Psr) (f : Flagged) : SameControl p (p.setNZCV f) := ⟨rfl, rfl, rfl, rfl⟩
theorem sameControl_setLong (p : Psr) (r : BitVec 64) : SameControl p (p.setLong r) := ⟨rfl, rfl, rfl, rfl⟩
theorem sameControl_withFlagsOf (p : Psr) (w : Word) : SameControl p (p.withFlagsOf w) := ⟨rfl, rfl, rfl, rfl⟩

/-- Flags that are written only if the S bit is set. -/
theorem keepsStatus_flagsIf (sf : Bool) {p : Psr} {s : State} (hp : SameControl s.cpsr p) :
    KeepsStatus s (if sf then s.withCpsr p else s) := by
  cases sf
  · exact .refl s
  · exact .withCpsr hp

/-- The end of the data-processing templates: only with the S bit and destination r15 does a reload change the control
bits, and then a branch follows (R183). -/
theorem statusEffect_dpResult (sf : Bool) (rd : Reg) (r : Word) {p : Psr} {s : State} (hp : SameControl s.cpsr p) :
    StatusEffect (sf && decide (rd = pcReg)) false false s
      ((dpReload sf rd (if sf then s.withCpsr p else s)).setReg rd r) := by
  unfold dpReload
  cases h : sf && decide (rd = pcReg)
  · exact (keepsStatus_flagsIf sf hp).trans (.setReg _ rd r)
  · obtain ⟨rfl, rfl⟩ : sf = true ∧ rd = pcReg := by simpa using h
    exact .of_branch r (by simp) (by simp) (by simp)

theorem yields_dpLogical (c : CondCode) (sf : Bool) (rd : Reg) (r : Word) (sc : Bool) (s : State) :
    Yields (sf && decide (rd = pcReg)) false false s (whenPassed c s (.next (dpLogical sf rd r sc s))) :=
  .whenPassed c (statusEffect_dpResult sf rd r (sameControl_setNZC ..))

theorem yields_dpArith (c : CondCode) (sf : Bool) (rd : Reg) (f : Flagged) (s : State) :
    Yields (sf && decide (rd = pcReg)) false false s (whenPassed c s (.next (dpArith sf rd f s))) :=
  .whenPassed c (statusEffect_dpResult sf rd f.r (sameControl_setNZCV ..))

theorem keepsStatus_mulResult (sf : Bool) (rd : Reg) (r : Word) (s : State) : KeepsStatus s (mulResult sf rd r s) :=
  (keepsStatus_flagsIf sf (sameControl_setNZC ..)).trans (.setReg _ rd r)

theorem keepsStatus_mulLongResult (sf : Bool) (rdHi rdLo : Reg) (r : BitVec 64) (s : State) :
    KeepsStatus s (mulLongResult sf rdHi rdLo r s) :=
  ((keepsStatus_flagsIf sf (sameControl_setLong ..)).trans (.setReg _ rdLo _)).trans (.setReg _ rdHi _)

/-- The fields that MSR writes: without the control field, the flags alone. -/
theorem sameControl_psrFields (ff : Bool) (v : Word) (p : Psr) : SameControl p (psrFields ff false v p) := by
  cases ff
  · exact .refl p
  · exact sameControl_withFlagsOf p v

/-- MSR writes a saved status register, or the CPSR; a change of T keeps the alignment when it is made from ARM state
(R201). -/
theorem statusEffect_psrWrite (p ff fc : Bool) (v : Word) (s : State) :
    StatusEffect (!p && fc) p true s (psrWrite p ff fc v s) := by
  cases p
  · exact ⟨fun h => by obtain rfl : fc = false := h; exact sameControl_psrFields ff v _, fun _ => rfl, rfl, rfl,
      fun ht => pcAligned_withCpsr_of_arm _ (ht rfl)⟩
  · simp only [psrWrite, if_true]
    split <;> exact ⟨fun _ => .refl _, nofun, rfl, rfl, fun _ h => h⟩

/-! ### Transfers -/

theorem keepsStatus_setTransferReg (user : Bool) (rd : Reg) (v : Word) (s : State) :
    KeepsStatus s (setTransferReg user rd v s) := by
  rw [setTransferReg_eq]
  exact .writeAt s _ v

theorem keepsStatus_writeBack (wb : Bool) (rn : Reg) (ea : Word) (s : State) : KeepsStatus s (writeBack wb rn ea s) := by
  cases wb
  · exact .refl s
  · exact .setReg s rn ea

theorem yields_loadTransfer (c : CondCode) (k : LoadKind) (user wb : Bool) (rn rd : Reg) (x : Indexed) (s : State) :
    Yields false false false s (whenPassed c s (loadTransfer k user wb rn rd x s)) :=
  .whenPassed c (.whenAdmitted _ _
    (((StatusEffect.load s k _).trans (keepsStatus_writeBack wb rn _ _)).trans (keepsStatus_setTransferReg user rd _ _)))

theorem yields_storeTransfer (c : CondCode) (n : Width) (user wb : Bool) (rn rd : Reg) (x : Indexed) (s : State) :
    Yields false false false s (whenPassed c s (storeTransfer n user wb rn rd x s)) :=
  .whenPassed c (.whenAdmitted _ _ ((StatusEffect.store s _ n _).trans (keepsStatus_writeBack wb rn _ _)))

theorem yields_swapWith (c : CondCode) (k : LoadKind) (rn rd rm : Reg) (s : State) :
    Yields false false false s (whenPassed c s (swapWith k rn rd rm s)) :=
  .whenPassed c (.whenAdmitted _ _ (((StatusEffect.load s k _).trans (.store _ _ _ _)).trans (.setReg _ rd _)))

theorem yields_thumbLoad (k : LoadKind) (rd : LowReg) (a : Word) (s : State) :
    Yields false false false s (thumbLoad k rd a s) :=
  .whenAdmitted _ _ ((StatusEffect.load s k a).trans (.setReg _ (lowReg rd) _))

theorem yields_thumbStore (n : Width) (rd : LowReg) (a : Word) (s : State) :
    Yields false false false s (thumbStore n rd a s) :=
  .whenAdmitted _ _ (StatusEffect.store s a n _)

theorem keepsStatus_loadRegs (user : Bool) (rs : List Reg) (a : Word) (s : State) :
    KeepsStatus s (loadRegs user rs a s) := by
  induction rs generalizing a s with
  | nil => exact .refl s
  | cons r rs ih => exact ((StatusEffect.load s .word a).trans (keepsStatus_setTransferReg user r _ _)).trans (ih _ _)

theorem keepsStatus_storeRegs (user : Bool) (x15 : Word) (rs : List Reg) (a : Word) (s : State) :
    KeepsStatus s (storeRegs user x15 rs a s) := by
  induction rs generalizing a s with
  | nil => exact .refl s
  | cons r rs ih => exact (StatusEffect.store s a .word _).trans (ih _ _)

theorem keepsStatus_storeMultiple (user wb : Bool) (rn : Reg) (start final : Word) (rs : List Reg) (s : State) :
    KeepsStatus s (storeMultiple user wb rn start final rs s) := by
  cases rs with
  | nil => exact keepsStatus_writeBack wb rn final s
  | cons r rest =>
    exact ((StatusEffect.store s start .word _).trans (keepsStatus_writeBack wb rn final _)).trans
      (keepsStatus_storeRegs user _ rest _ _)

/-- The load of r15 changes the control bits only where it reloads the CPSR, and it ends in a branch (R291). -/
theorem statusEffect_loadPc (reload : Bool) (a : Word) (s : State) :
    StatusEffect reload false false s (loadPc reload a s) := by
  cases reload
  · exact (StatusEffect.load s .word a).trans (.branch _ _)
  · exact .of_branch _ (by simp) (by simp) (by simp)

theorem statusEffect_loadMultiple (ub wb : Bool) (rn : Reg) (start final : Word) (list : BitVec 16) (s : State) :
    StatusEffect (ub && list.getLsbD 15) false false s (loadMultiple ub wb rn start final list s) := by
  have h := (keepsStatus_writeBack wb rn final s).trans
    (keepsStatus_loadRegs (ub && !list.getLsbD 15) (regsOf (list &&& 0x7FFF#16)) start _)
  unfold loadMultiple
  generalize list.getLsbD 15 = pcInList at h ⊢
  cases pcInList
  · rw [Bool.and_false]
    exact h
  · rw [Bool.and_true]
    exact h.trans (statusEffect_loadPc ub _ _)

/-! ### Branches, exceptions and software interrupts -/

theorem statusEffect_branchExchange (v : Word) (s : State) : StatusEffect true false false s (branchExchange v s) :=
  .of_branch v rfl rfl rfl

theorem keepsStatus_thumbBranchIf (c : CondCode) (off : BitVec 8) (s : State) : KeepsStatus s (thumbBranchIf c off s) := by
  unfold thumbBranchIf
  split
  · exact .branch s _
  · exact .refl s

theorem yields_undefinedArm (k : UndefKind) (w : Word) (s : State) : Yields false false false s (undefinedArm k w s) :=
  .whenPassed _ (StatusEffect.emit s _)

/-- An entry ends in a branch to its vector (R471). -/
theorem statusEffect_takeException (e : ArchException) (s : State) :
    StatusEffect true true false s (takeException e s) := by
  refine ⟨nofun, nofun, ?_, ?_, fun _ _ => pcAligned_branch _ _⟩ <;> unfold takeException <;> split <;> simp

/-- A software interrupt that no external service answers: refused, or an exception entry (R466). -/
theorem yields_softwareInterrupt (comment : BitVec 24) {s : State} (h : s.params.swi ≠ .external) :
    Yields true true false s (softwareInterrupt comment s) := by
  unfold softwareInterrupt
  cases hs : s.params.swi with
  | absent => exact .inr rfl
  | vectored => exact (StatusEffect.emit s _).trans (statusEffect_takeException _ _)
  | external => exact absurd hs h

/-! ### Every instruction -/

/-- The two instructions of PSR transfer that write. -/
def isMsr : Instr → Bool
  | .msrReg .. | .msrImm .. => true
  | _ => false

/-- What every instruction does to the status. Each case is an operation that the instructions named there share; `exec`
unfolds to it. A software interrupt may write all the status, as an exception entry does. -/
theorem exec_yields (i : Instr) (s : State) (hi : isSwi i = true → s.params.swi ≠ .external) :
    Yields (isSwi i || writesControl i) (isSwi i || writesSaved i) (isMsr i) s (exec i s) := by
  cases i with
  | andImm | andReg | andRsr | eorImm | eorReg | eorRsr | orrImm | orrReg | orrRsr | movImm | movReg | movRsr
  | bicImm | bicReg | bicRsr | mvnImm | mvnReg | mvnRsr => exact yields_dpLogical ..
  | subImm | subReg | subRsr | rsbImm | rsbReg | rsbRsr | addImm | addReg | addRsr | adcImm | adcReg | adcRsr
  | sbcImm | sbcReg | sbcRsr | rscImm | rscReg | rscRsr => exact yields_dpArith ..
  | tstImm | tstReg | tstRsr | teqImm | teqReg | teqRsr =>
    exact .whenPassed _ (StatusEffect.withCpsr (sameControl_setNZC ..))
  | cmpImm | cmpReg | cmpRsr | cmnImm | cmnReg | cmnRsr =>
    exact .whenPassed _ (StatusEffect.withCpsr (sameControl_setNZCV ..))
  | mrs => exact .whenPassed _ (StatusEffect.setReg ..)
  | msrReg | msrImm => exact .whenPassed _ (statusEffect_psrWrite ..)
  | bx => exact .whenPassed _ (statusEffect_branchExchange ..)
  | mul | mla => exact .whenPassed _ (keepsStatus_mulResult ..)
  | umull | umlal | smull | smlal => exact .whenPassed _ (keepsStatus_mulLongResult ..)
  | swp | swpb => exact yields_swapWith ..
  | ldrhRegPre | ldrhRegPost | ldrhImmPre | ldrhImmPost | ldrsbRegPre | ldrsbRegPost | ldrsbImmPre | ldrsbImmPost
  | ldrshRegPre | ldrshRegPost | ldrshImmPre | ldrshImmPost | ldrImmPre | ldrImmPost | ldrtImm | ldrRegPre | ldrRegPost
  | ldrtReg | ldrbImmPre | ldrbImmPost | ldrbtImm | ldrbRegPre | ldrbRegPost | ldrbtReg => exact yields_loadTransfer ..
  | strhRegPre | strhRegPost | strhImmPre | strhImmPost | strImmPre | strImmPost | strtImm | strRegPre | strRegPost
  | strtReg | strbImmPre | strbImmPost | strbtImm | strbRegPre | strbRegPost | strbtReg => exact yields_storeTransfer ..
  | ldm => exact .whenPassed _ (.whenAdmitted _ _ (statusEffect_loadMultiple ..))
  | stm => exact .whenPassed _ (.whenAdmitted _ _ (keepsStatus_storeMultiple ..))
  | b => exact .whenPassed _ (StatusEffect.branch ..)
  | bl => exact .whenPassed _ ((StatusEffect.setReg ..).trans (.branch ..))
  | swi => exact .whenPassed _ (yields_softwareInterrupt _ (hi rfl))
  | undMulSpace | undTestReg | undTestRsr | undTestImm | undClass011 | undCopTransfer | undCopOp =>
    exact yields_undefinedArm ..
  | tLslImm | tLsrImm | tAsrImm | tLslReg | tLsrReg | tAsrReg | tRorReg | tMul =>
    exact (StatusEffect.withCpsr (sameControl_setNZC ..)).trans (.setReg ..)
  | tAddReg | tSubReg | tAddImm3 | tSubImm3 | tAddImm8 | tSubImm8 | tAdc | tSbc | tNeg =>
    exact (StatusEffect.withCpsr (sameControl_setNZCV ..)).trans (.setReg ..)
  | tMovImm8 | tAnd | tEor | tOrr | tBic | tMvn =>
    exact (StatusEffect.withCpsr (sameControl_setNZ ..)).trans (.setReg ..)
  | tCmpImm8 | tCmp | tCmn | tCmpHi => exact StatusEffect.withCpsr (sameControl_setNZCV ..)
  | tTst => exact StatusEffect.withCpsr (sameControl_setNZ ..)
  | tAddHi | tMovHi | tAddPc | tAddSp | tSpPlus | tSpMinus | tBlHigh => exact StatusEffect.setReg ..
  | tBx => exact statusEffect_branchExchange ..
  | tLdrPc | tLdsbReg | tLdrReg | tLdrhReg | tLdrbReg | tLdshReg | tLdrImm | tLdrbImm | tLdrhImm | tLdrSp =>
    exact yields_thumbLoad ..
  | tStrReg | tStrhReg | tStrbReg | tStrImm | tStrbImm | tStrhImm | tStrSp => exact yields_thumbStore ..
  | tPush => exact .whenAdmitted _ _ ((keepsStatus_storeRegs ..).trans (.setReg ..))
  | tPop r list =>
    refine .whenAdmitted _ _ ?_
    have h := (keepsStatus_loadRegs false (lowRegsOf list) (s.reg sp) s).trans
      (.setReg _ sp (s.reg sp + wordsSize (popCount r list)))
    cases r
    · exact h
    · exact h.trans (statusEffect_loadPc ..)
  | tStmia => exact .whenAdmitted _ _ (keepsStatus_storeMultiple ..)
  | tLdmia => exact .whenAdmitted _ _ ((StatusEffect.setReg ..).trans (keepsStatus_loadRegs ..))
  | tBeq | tBne | tBcs | tBcc | tBmi | tBpl | tBvs | tBvc | tBhi | tBls | tBge | tBlt | tBgt | tBle =>
    exact keepsStatus_thumbBranchIf ..
  | tSwi => exact yields_softwareInterrupt _ (hi rfl)
  | tB => exact StatusEffect.branch ..
  | tBlLow => exact (StatusEffect.setReg ..).trans (.branch ..)
  | tUndCond14 | tUndB1 | tUndB2 | tUndB6 | tUndB8 | tUndBe | tUndE8 => exact StatusEffect.emit ..

/-! ### The fetched instruction -/

/-- No leaf of the THUMB decode tree is an MSR (R120). -/
theorem isMsr_decodeThumb (h : Half) : isMsr (decodeThumb h) = false := by
  simp only [decodeThumb, decodeThumbImm, decodeThumbMem, decodeThumbAlu, decodeThumbRegOffset, decodeThumbStack,
    decodeThumbMisc, decodeThumbBranch, decodeThumbCond, apply_ite isMsr]
  simp only [isMsr, ite_self]

/-- An MSR is fetched in ARM state only. -/
theorem arm_of_isMsr_fetched {s : State} (h : isMsr (decode (fetchCode s)) = true) : s.cpsr.t = false := by
  cases ht : s.cpsr.t
  · rfl
  · simp [fetchCode, ht, decode, isMsr_decodeThumb] at h

/-! ### The invariant of the program counter -/

/-- What keeps the alignment, the parameters and the schedule keeps the invariant. -/
theorem PcSound.of_statusEffect {control saved msr : Bool} {s t : State} (h : PcSound s)
    (he : StatusEffect control saved msr s t) (hm : msr = true → s.cpsr.t = false) : PcSound t where
  aligned := he.aligned hm h.aligned
  resetPc := he.params ▸ h.resetPc
  service := he.params ▸ h.service
  host := he.schedule ▸ h.host

theorem PcSound.dropTurn {s : State} {turn : Turn} {turns : List Turn} (h : PcSound s)
    (hs : s.schedule = turn :: turns) : PcSound { s with schedule := turns } where
  aligned := h.aligned
  resetPc := h.resetPc
  service := h.service
  host p hp := h.host p (hs ▸ List.mem_cons_of_mem turn hp)

theorem PcSound.advance {s : State} (h : PcSound s) : PcSound (advance s) :=
  ⟨pcAligned_advance h.aligned, h.resetPc, h.service, h.host⟩

/-- One step of the core is not refused for its program counter and keeps the invariant. -/
theorem PcSound.coreStep {s : State} (h : PcSound s) :
    coreStep s ≠ .refused .misalignedPc ∧ ∀ t, coreStep s = .next t → PcSound t := by
  have hy := exec_yields (decode (fetchCode s)) (Machine.advance s) fun _ => h.service
  rw [Machine.coreStep, if_pos h.aligned]
  refine ⟨fun hr => ?_, fun t ht => ?_⟩
  · rw [hr] at hy
    exact absurd hy (by simp [Yields])
  · rw [ht] at hy
    exact h.advance.of_statusEffect hy arm_of_isMsr_fetched

/-- A reset by the host puts the program counter at the reset address, in ARM state (R490, R491). -/
theorem PcSound.hostReset {s : State} (h : PcSound s) : PcSound (hostReset s) :=
  ⟨(pcAligned_iff _).2 h.resetPc, h.resetPc, h.service, h.host⟩

/-- A host action other than a write of the CPSR keeps the invariant. -/
theorem PcSound.hostAct {s : State} {a : HostAction} (h : PcSound s) (ha : ∀ p, a ≠ .writeCpsr p) :
    PcSound (hostAct a s) := by
  cases a with
  | writeReg i v => exact h.of_statusEffect (StatusEffect.setReg s (hostReg i) v) nofun
  | writeUserReg i v => exact h.of_statusEffect (StatusEffect.writeAt s _ v) nofun
  | branch t => exact h.of_statusEffect (StatusEffect.branch s t) nofun
  | writeCpsr p => exact absurd rfl (ha p)
  | writeSpsr b p => exact ⟨h.aligned, h.resetPc, h.service, h.host⟩
  | reset => exact h.hostReset
  | enter e => exact h.of_statusEffect (statusEffect_takeException e s) nofun

/-- Settles O18: a step is one turn, of the core or of the host, and each keeps the invariant. -/
theorem stepKeepsPcAligned : Obligations.StepKeepsPcAligned := by
  intro s h
  unfold step
  cases hs : s.schedule with
  | nil => exact h.coreStep
  | cons turn turns =>
    have hd := h.dropTurn hs
    cases turn with
    | core => exact hd.coreStep
    | host a =>
      refine ⟨nofun, fun t ht => ?_⟩
      cases ht
      refine hd.hostAct fun p hp => h.host p ?_
      simp [hs, hp]

/-- Settles O11, from what every instruction does to the status. -/
theorem onlyStatusWritersChangeControlBits : Obligations.OnlyStatusWritersChangeControlBits := by
  intro i s t hi ht
  have hy := exec_yields i s fun h => absurd h (by simp [hi])
  rw [ht, hi] at hy
  exact ⟨hy.control, hy.saved⟩

/-! ### Banks -/

/-- The register number that names a storage. -/
def PReg.number : PReg → Nat
  | .g k => k
  | .h k => k + 8
  | .hFiq k => k + 8
  | .s13 _ => 13
  | .s14 _ => 14

/-- A storage has one register number, whatever the mode. -/
theorem number_of_physReg {m : BitVec 5} {i : Reg} {q : PReg} (h : physReg m i = some q) : q.number = i.toNat := by
  unfold physReg at h
  split_ifs at h <;> cases h <;> simp only [PReg.number] <;> omega

theorem physReg_of_lt_eight (m : BitVec 5) {i : Reg} (h : i.toNat < 8) : physReg m i = some (.g ⟨i.toNat, h⟩) :=
  dif_pos h

theorem physReg_of_lt_thirteen (m : BitVec 5) {i : Reg} (h8 : ¬ i.toNat < 8) (h13 : i.toNat < 13) :
    physReg m i = some (if m = modeFiq then .hFiq ⟨i.toNat - 8, by omega⟩ else .h ⟨i.toNat - 8, by omega⟩) := by
  simp [physReg, h8, h13, bank8Fiq]

/-- In which two modes a register number names the same storage (R22, R23). -/
theorem physReg_mode_iff {m m' : BitVec 5} {i : Reg} (hi : i ≠ 15#4) :
    physReg m i = physReg m' i ↔
      i.toNat < 8 ∨ 8 ≤ i.toNat ∧ i.toNat < 13 ∧ (m = modeFiq ↔ m' = modeFiq) ∨
        13 ≤ i.toNat ∧ bank13 m = bank13 m' := by
  by_cases h8 : i.toNat < 8
  · simp [physReg_of_lt_eight, h8]
  by_cases h13 : i.toNat < 13
  · rw [physReg_of_lt_thirteen m h8 h13, physReg_of_lt_thirteen m' h8 h13]
    by_cases hm : m = modeFiq <;> by_cases hm' : m' = modeFiq <;> simp [hm, hm'] <;> omega
  · have hcases : i = sp ∨ i = lr := by
      have := i.isLt
      simp only [sp, lr, ← BitVec.toNat_inj, BitVec.toNat_ofNat, ne_eq] at hi ⊢
      omega
    rcases hcases with rfl | rfl
    · rw [physReg_sp, physReg_sp]
      simp [sp]
    · rw [physReg_lr, physReg_lr]
      simp [lr]

/-- Which storage two register numbers share over any two modes. -/
theorem physReg_eq_iff {m m' : BitVec 5} {i j : Reg} (hi : i ≠ 15#4) :
    physReg m i = physReg m' j ↔
      i = j ∧ (i.toNat < 8 ∨ 8 ≤ i.toNat ∧ i.toNat < 13 ∧ (m = modeFiq ↔ m' = modeFiq) ∨
        13 ≤ i.toNat ∧ bank13 m = bank13 m') := by
  rw [← physReg_mode_iff hi]
  refine ⟨fun h => ?_, fun ⟨hij, h⟩ => hij ▸ h⟩
  obtain ⟨q, hq⟩ := Option.ne_none_iff_exists'.1 (physReg_eq_none.not.2 hi : physReg m i ≠ none)
  obtain rfl : i = j := BitVec.eq_of_toNat_eq ((number_of_physReg hq).symm.trans (number_of_physReg (h ▸ hq)))
  exact ⟨rfl, h⟩

/-- A register reads as the storage that its number names. -/
theorem reg_eq_get {s : State} {i : Reg} {q : PReg} (h : physReg s.cpsr.m i = some q) : s.reg i = s.regs.get q := by
  rw [State.reg, h]
  rfl

/-- A register read after a register write and a change of mode. -/
theorem reg_withCpsr_setReg (s : State) (p : Psr) (i : Reg) {j : Reg} (v : Word) (hj : j ≠ 15#4) :
    ((s.setReg i v).withCpsr p).reg j = if physReg s.cpsr.m i = physReg p.m j then v else (s.withCpsr p).reg j := by
  obtain ⟨q, hq⟩ := Option.ne_none_iff_exists'.1 (physReg_eq_none.not.2 hj : physReg p.m j ≠ none)
  rw [reg_eq_get (s := (s.setReg i v).withCpsr p) hq, reg_eq_get (s := s.withCpsr p) hq, hq]
  exact State.get_setReg s i v q

/-- Settles O27: the banks of the 32 modes by evaluation, the sharing and the reads by the laws of `physReg`. -/
theorem banksAreIndependent : Obligations.BanksAreIndependent :=
  ⟨by decide, fun _ _ _ _ hi _ => physReg_eq_iff hi, fun s p i _ v _ hj => reg_withCpsr_setReg s p i v hj⟩

/-! ### One step -/

/-- The four bytes at the program counter decode to the fetched instruction. -/
theorem decodeBytes_at_pc (s : State) :
    decodeBytes s.cpsr.t [s.mem.byte s.pc, s.mem.byte (s.pc + 1#32), s.mem.byte (s.pc + 2#32), s.mem.byte (s.pc + 3#32)] =
      .ok (decode (fetchCode s), if s.cpsr.t then [s.mem.byte (s.pc + 2#32), s.mem.byte (s.pc + 3#32)] else []) := by
  cases ht : s.cpsr.t <;> simp [decodeBytes, fetchCode, ht, decode, Memory.read16, Memory.read32, Memory.byteAt]

/-- The core's turn at an aligned program counter. -/
theorem coreStep_of_aligned {s : State} {i : Instr} {rest : List Byte}
    (ha : s.pc.toNat % (if s.cpsr.t then 2 else 4) = 0)
    (hi : decodeBytes s.cpsr.t
      [s.mem.byte s.pc, s.mem.byte (s.pc + 1#32), s.mem.byte (s.pc + 2#32), s.mem.byte (s.pc + 3#32)] = .ok (i, rest)) :
    coreStep s = exec i (advance s) := by
  rw [decodeBytes_at_pc] at hi
  cases hi
  rw [coreStep, if_pos ((pcAligned_iff s).2 ha)]

/-- The core's turn at a misaligned program counter (R38). -/
theorem coreStep_of_misaligned {s : State} (ha : s.pc.toNat % (if s.cpsr.t then 2 else 4) ≠ 0) :
    coreStep s = .refused .misalignedPc := by
  rw [coreStep, if_neg (fun h => ha ((pcAligned_iff s).1 h))]

theorem step_nil {s : State} (h : s.schedule = []) : step s = coreStep s := by
  rw [step, h]

theorem step_cons {s : State} {turn : Turn} {turns : List Turn} (h : s.schedule = turn :: turns) :
    step s = takeTurn turn { s with schedule := turns } := by
  rw [step, h]

/-- Settles O6, by whose turn it is. -/
theorem stepRunsDecodedInstruction : Obligations.StepRunsDecodedInstruction := by
  refine ⟨fun s i rest ha hi => ⟨fun hs => ?_, fun turns hs => ?_⟩, fun s hc ha => ?_, fun s a turns hs => step_cons hs⟩
  · exact (step_nil hs).trans (coreStep_of_aligned ha hi)
  · exact (step_cons hs).trans (coreStep_of_aligned (s := { s with schedule := turns }) ha hi)
  · cases hs : s.schedule with
    | nil => exact (step_nil hs).trans (coreStep_of_misaligned ha)
    | cons turn turns =>
      cases turn with
      | core => exact (step_cons hs).trans (coreStep_of_misaligned (s := { s with schedule := turns }) ha)
      | host a => simp [coreTurn, hs] at hc

end Sys2Proof.Machine

/-! # Proofs: memory

What a store leaves and what a load gives, byte by byte; and, said once for every instruction, which data access it
makes and what it leaves of memory (`exec_dataEffect`). -/

namespace Sys2Proof.Machine

/-! ### Bytes of a word -/

/-- Two neighbouring bytes of a word are a halfword of it. -/
theorem halfOfBytes_byteOf (v : Word) (k : Nat) :
    halfOfBytes (byteOf v k) (byteOf v (k + 1)) = v.extractLsb' (8 * k) 16 :=
  BitVec.extractLsb'_append_extractLsb'_eq_extractLsb' (by omega)

/-- The four bytes of a word, put together from the top. -/
theorem wordOfBytes_byteOf (v : Word) : wordOfBytes (byteOf v 0) (byteOf v 1) (byteOf v 2) (byteOf v 3) = v := by
  simp only [wordOfBytes, byteOf, field]
  rw [BitVec.extractLsb'_append_extractLsb'_eq_extractLsb' (by decide),
    BitVec.extractLsb'_append_extractLsb'_eq_extractLsb' (by decide),
    BitVec.extractLsb'_append_extractLsb'_eq_extractLsb' (by decide)]
  exact BitVec.extractLsb'_eq_self

/-! ### Reading back a store -/

namespace Memory

theorem byteAt_add (m : Memory) (a : Word) (j k : Nat) :
    m.byteAt (a + BitVec.ofNat 32 j) k = m.byteAt a (j + k) := by
  rw [byteAt, byteAt, BitVec.add_assoc, ← BitVec.ofNat_add]

theorem byteAt_store (m : Memory) (a v : Word) {n : Width} {k : Nat} (hk : k < n.bytes) :
    (m.store a n v).byteAt a k = byteOf v k :=
  (stored_store m a v n).1 k hk

theorem read32_store (m : Memory) (a v : Word) : (m.store a .word v).read32 a = v := by
  have h {k : Nat} (hk : k < 4) : (m.store a .word v).byteAt a k = byteOf v k := byteAt_store m a v hk
  rw [read32, h (by decide), h (by decide), h (by decide), h (by decide), wordOfBytes_byteOf]

/-- A halfword that lies inside a store reads back as the bytes stored there. -/
theorem read16_store (m : Memory) (a v : Word) {n : Width} {k : Nat} (hk : k + 1 < n.bytes) :
    (m.store a n v).read16 (a + BitVec.ofNat 32 k) = v.extractLsb' (8 * k) 16 := by
  rw [read16, byteAt_add, byteAt_add, Nat.add_zero, byteAt_store m a v hk, byteAt_store m a v (by omega),
    halfOfBytes_byteOf]

end Memory

/-- Settles O28, from the bytes that a store sets. -/
theorem memoryIsLittleEndian : Obligations.MemoryIsLittleEndian := by
  intro m a v n
  have hhalf (n : Width) (h : 1 < n.bytes) : (m.store a n v).read16 a = v.extractLsb' 0 16 := by
    simpa using m.read16_store a v (n := n) (k := 0) h
  have hbyte : (m.store a .byte v).byte a = v.extractLsb' 0 8 := by
    simpa [byteOf, field] using (stored_store m a v .byte).1 0 (by decide)
  exact ⟨stored_store m a v n, m.read32_store a v, hhalf .word (by decide),
    m.read16_store a v (n := .word) (k := 2) (by decide), (stored_store m a v .word).1 1 (by decide),
    hhalf .half (by decide), hbyte⟩

/-! ### What a load gives -/

theorem read32_eq_append (m : Memory) (a : Word) :
    m.read32 a = m.byte (a + 3#32) ++ m.byte (a + 2#32) ++ m.byte (a + 1#32) ++ m.byte a := by
  simp [Memory.read32, wordOfBytes, Memory.byteAt]

theorem read16_eq_append (m : Memory) (a : Word) : m.read16 a = m.byte (a + 1#32) ++ m.byte a := by
  simp [Memory.read16, halfOfBytes, Memory.byteAt]

/-- The rotation of a loaded word, as two shifts (R78). -/
theorem rotateBy_eq_shifts (a v : Word) :
    rotateBy a v =
      if 8 * (a.toNat % 4) = 0 then v else v >>> (8 * (a.toNat % 4)) ||| v <<< (32 - 8 * (a.toNat % 4)) := by
  rw [rotateBy, toNat_and_three, BitVec.rotateRight_def, Nat.mod_eq_of_lt (show 8 * (a.toNat % 4) < 32 by omega)]
  split_ifs with h
  · simp [h]
  · rfl

/-- A halfword rotated by one byte (R78): its high byte comes down, its low byte goes to the top. -/
theorem rotateRight_half (high low : Byte) :
    ((high ++ low).setWidth 32).rotateRight 8 = high.setWidth 32 ||| low.setWidth 32 <<< 24 := by
  ext i hi
  simp only [BitVec.getElem_rotateRight, BitVec.getElem_or, BitVec.getElem_setWidth, BitVec.getElem_shiftLeft]
  grind

/-- An odd address with bit 0 cleared is the address before it. -/
theorem and_mask1_of_odd {a : Word} (h : a.toNat % 2 = 1) : a &&& 0xFFFFFFFE#32 = a - 1#32 := by
  apply BitVec.eq_of_toNat_eq
  rw [toNat_and_mask1, h, BitVec.toNat_sub_of_le (by simp [BitVec.le_def]; omega)]
  rfl

theorem loadValue_word (m : Memory) (a : Word) : loadValue m .word a = rotateBy a (m.read32 (a &&& 0xFFFFFFFC#32)) := rfl

theorem loadValue_half (m : Memory) (a : Word) :
    loadValue m .half a = ((m.read16 (a &&& 0xFFFFFFFE#32)).setWidth 32).rotateRight (8 * (a &&& 1#32).toNat) := rfl

theorem loadValue_signedHalf (m : Memory) (a : Word) :
    loadValue m .signedHalf a = if a &&& 1#32 = 0#32 then (m.read16 a).signExtend 32 else (m.byte a).signExtend 32 := rfl

/-- Settles O30: each kind of load, the halfwords at even and odd addresses. -/
theorem loadedValues : Obligations.LoadedValues := by
  intro m a
  refine ⟨?_, rfl, rfl, fun h => ?_, fun h => ?_⟩
  · rw [loadValue_word, rotateBy_eq_shifts, read32_eq_append]
  · change a.toNat % 2 = 0 at h
    refine ⟨?_, ?_⟩
    · rw [loadValue_half, toNat_and_one, h, (and_mask1_eq_self a).2 h, read16_eq_append]
      simp [BitVec.rotateRight_def]
    · rw [loadValue_signedHalf, if_pos ((and_one_eq_zero a).2 h), read16_eq_append]
  · change a.toNat % 2 ≠ 0 at h
    have hodd : a.toNat % 2 = 1 := by omega
    refine ⟨?_, ?_⟩
    · rw [loadValue_half, toNat_and_one, hodd, and_mask1_of_odd hodd, read16_eq_append, BitVec.sub_add_cancel]
      exact rotateRight_half _ _
    · rw [loadValue_signedHalf, if_neg ((and_one_eq_zero a).not.2 h)]

/-! ### What the shared operations leave of memory -/

@[simp] theorem mem_dpLogical (sf : Bool) (rd : Reg) (r : Word) (sc : Bool) (s : State) :
    (dpLogical sf rd r sc s).mem = s.mem := by
  rw [(dpLogical_spec sf rd r sc s).2]

@[simp] theorem mem_dpArith (sf : Bool) (rd : Reg) (f : Flagged) (s : State) : (dpArith sf rd f s).mem = s.mem := by
  rw [(dpArith_spec sf rd f s).2]

@[simp] theorem mem_mulResult (sf : Bool) (rd : Reg) (r : Word) (s : State) : (mulResult sf rd r s).mem = s.mem := by
  cases sf <;> simp [mulResult]

@[simp] theorem mem_mulLongResult (sf : Bool) (rdHi rdLo : Reg) (r : BitVec 64) (s : State) :
    (mulLongResult sf rdHi rdLo r s).mem = s.mem := by
  cases sf <;> simp [mulLongResult]

@[simp] theorem mem_psrWrite (p ff fc : Bool) (v : Word) (s : State) : (psrWrite p ff fc v s).mem = s.mem := by
  cases p
  · rfl
  · simp only [psrWrite, if_true]
    split <;> rfl

@[simp] theorem mem_setTransferReg (user : Bool) (rd : Reg) (v : Word) (s : State) :
    (setTransferReg user rd v s).mem = s.mem := by
  rw [setTransferReg_eq, State.mem_writeAt]

@[simp] theorem mem_writeBack (wb : Bool) (rn : Reg) (ea : Word) (s : State) : (writeBack wb rn ea s).mem = s.mem :=
  (writeBack_spec wb rn ea s).2.mem

@[simp] theorem mem_loadRegs (user : Bool) (rs : List Reg) (a : Word) (s : State) :
    (loadRegs user rs a s).mem = s.mem := by
  rw [(loadRegs_block_spec user rs a s).2]

@[simp] theorem mem_loadPc (reload : Bool) (a : Word) (s : State) : (loadPc reload a s).mem = s.mem := by
  rw [(loadPc_spec reload a s).2]

@[simp] theorem mem_loadMultiple (ub wb : Bool) (rn : Reg) (start final : Word) (list : BitVec 16) (s : State) :
    (loadMultiple ub wb rn start final list s).mem = s.mem := by
  rw [(loadMultiple_spec ub wb rn start final list s).2]

@[simp] theorem mem_thumbBranchIf (c : CondCode) (off : BitVec 8) (s : State) : (thumbBranchIf c off s).mem = s.mem := by
  unfold thumbBranchIf
  split <;> rfl

@[simp] theorem mem_takeException (e : ArchException) (s : State) : (takeException e s).mem = s.mem := by
  unfold takeException
  split <;> simp

/-- A software interrupt that no external service answers leaves memory alone (R466, R471). -/
theorem mem_softwareInterrupt {comment : BitVec 24} {s t : State} (h : s.params.swi ≠ .external)
    (ht : softwareInterrupt comment s = .next t) : t.mem = s.mem := by
  unfold softwareInterrupt at ht
  cases hs : s.params.swi with
  | absent => simp [hs] at ht
  | vectored =>
    rw [hs] at ht
    cases ht
    simp
  | external => exact absurd hs h

/-! ### When a shared operation is refused -/

theorem whenPassed_eq_refused {c : CondCode} {s : State} {o : Result} {r : Refusal} :
    whenPassed c s o = .refused r ↔ condPass c s.cpsr = true ∧ o = .refused r := by
  cases h : condPass c s.cpsr <;> simp [h]

theorem whenAdmitted_next_eq_refused {s t : State} {a : Word} {n : Width} {r : Refusal} :
    whenAdmitted s a n (.next t) = .refused r ↔
      r = .misalignedAccess ∧ s.params.misaligned = .refuse ∧ ¬ Aligned a n := by
  have hpolicy : s.params.misaligned = .refuse ↔ ¬ s.params.misaligned = .rotate := by
    cases s.params.misaligned <;> decide
  rw [hpolicy, and_comm (a := ¬ _), ← not_or, ← admits_iff, whenAdmitted]
  cases s.admits a n <;> simp [eq_comm]

theorem softwareInterrupt_eq_refused {comment : BitVec 24} {s : State} {r : Refusal} :
    softwareInterrupt comment s = .refused r ↔ r = .noSwiService ∧ s.params.swi = .absent := by
  unfold softwareInterrupt
  cases s.params.swi <;> simp [eq_comm]

/-! ### Offsets, as the forms of the transfers write them -/

theorem times4_eq_shift {n : Nat} (v : BitVec n) : times4 v = v.setWidth 32 <<< 2 := by
  ext i hi
  simp [times4, BitVec.getLsbD_append]

theorem times2_eq_shift {n : Nat} (v : BitVec n) : times2 v = v.setWidth 32 <<< 1 := by
  ext i hi
  simp [times2, BitVec.getLsbD_append]

theorem splitOffset_eq_or (high low : BitVec 4) :
    splitOffset high low = high.setWidth 32 <<< 4 ||| low.setWidth 32 := by
  ext i hi
  simp only [splitOffset, BitVec.getElem_setWidth, BitVec.getElem_or, BitVec.getElem_shiftLeft]
  grind

/-! ### The data access of every instruction -/

/-- What an instruction does once its condition passes, as far as its data access goes: it makes none and leaves memory
alone, or it makes the one of `accessOf` where that is admitted, or it is a software interrupt. -/
inductive DataEffect (i : Instr) (s : State) : Result → Prop
  | noAccess {t : State} (hswi : isSwi i = false) (hacc : accessOf s i = none) (hmem : t.mem = s.mem) :
    DataEffect i s (.next t)
  | access {t : State} {a : Word} {n : Width} (hswi : isSwi i = false) (hacc : accessOf s i = some (a, n))
    (hmem : storesToMemory i = false → t.mem = s.mem) : DataEffect i s (whenAdmitted s a n (.next t))
  | service {comment : BitVec 24} (hswi : isSwi i = true) (hacc : accessOf s i = none) :
    DataEffect i s (softwareInterrupt comment s)

/-- The effect behind the condition gate of the instruction. -/
def GatedEffect (i : Instr) (s : State) (r : Result) : Prop := ∃ o, DataEffect i s o ∧ r = whenPassed (condOf i) s o

theorem GatedEffect.gated {i : Instr} {s : State} {o : Result} (h : DataEffect i s o) :
    GatedEffect i s (whenPassed (condOf i) s o) := ⟨o, h, rfl⟩

/-- A THUMB instruction always executes (R143). -/
theorem GatedEffect.always {i : Instr} {s : State} {o : Result} (hc : condOf i = 14#4) (h : DataEffect i s o) :
    GatedEffect i s o := ⟨o, h, by rw [hc, whenPassed_of_pass rfl]⟩

section
variable {i : Instr} {s : State} (hswi : isSwi i = false)
include hswi

theorem dataEffect_loadTransfer {k : LoadKind} (user wb : Bool) (rn rd : Reg) {x : Indexed}
    (hacc : accessOf s i = some (x.addr, k.width)) : DataEffect i s (loadTransfer k user wb rn rd x s) :=
  .access hswi hacc fun _ => by simp

theorem dataEffect_storeTransfer {n : Width} (user wb : Bool) (rn rd : Reg) {x : Indexed}
    (hacc : accessOf s i = some (x.addr, n)) (hst : storesToMemory i = true) :
    DataEffect i s (storeTransfer n user wb rn rd x s) :=
  .access hswi hacc fun h => by simp [hst] at h

theorem dataEffect_thumbLoad {k : LoadKind} (rd : LowReg) {a : Word} (hacc : accessOf s i = some (a, k.width)) :
    DataEffect i s (thumbLoad k rd a s) :=
  .access hswi hacc fun _ => by simp [State.setLow]

theorem dataEffect_thumbStore {n : Width} (rd : LowReg) {a : Word} (hacc : accessOf s i = some (a, n))
    (hst : storesToMemory i = true) : DataEffect i s (thumbStore n rd a s) :=
  .access hswi hacc fun h => by simp [hst] at h

end

/-- What every instruction does with memory, and where. Each case is an operation that the instructions named there
share; `exec` unfolds to it, and `accessOf` to the address it accesses. -/
theorem exec_dataEffect (i : Instr) (s : State) : GatedEffect i s (exec i s) := by
  cases i with
  | andImm | andReg | andRsr | eorImm | eorReg | eorRsr | orrImm | orrReg | orrRsr | movImm | movReg | movRsr
  | bicImm | bicReg | bicRsr | mvnImm | mvnReg | mvnRsr => exact .gated (.noAccess rfl rfl (mem_dpLogical ..))
  | subImm | subReg | subRsr | rsbImm | rsbReg | rsbRsr | addImm | addReg | addRsr | adcImm | adcReg | adcRsr
  | sbcImm | sbcReg | sbcRsr | rscImm | rscReg | rscRsr => exact .gated (.noAccess rfl rfl (mem_dpArith ..))
  | tstImm | tstReg | tstRsr | teqImm | teqReg | teqRsr | cmpImm | cmpReg | cmpRsr | cmnImm | cmnReg | cmnRsr =>
    exact .gated (.noAccess rfl rfl (State.mem_withCpsr ..))
  | mrs => exact .gated (.noAccess rfl rfl (State.mem_setReg ..))
  | msrReg | msrImm => exact .gated (.noAccess rfl rfl (mem_psrWrite ..))
  | mul | mla => exact .gated (.noAccess rfl rfl (mem_mulResult ..))
  | umull | umlal | smull | smlal => exact .gated (.noAccess rfl rfl (mem_mulLongResult ..))
  | swp | swpb => exact .gated (.access rfl rfl nofun)
  | ldrhRegPre | ldrhRegPost | ldrsbRegPre | ldrsbRegPost | ldrshRegPre | ldrshRegPost | ldrImmPre | ldrImmPost
  | ldrtImm | ldrRegPre | ldrRegPost | ldrtReg | ldrbImmPre | ldrbImmPost | ldrbtImm | ldrbRegPre | ldrbRegPost
  | ldrbtReg => exact .gated (dataEffect_loadTransfer rfl _ _ _ _ rfl)
  | ldrhImmPre | ldrhImmPost | ldrsbImmPre | ldrsbImmPost | ldrshImmPre | ldrshImmPost =>
    refine .gated (dataEffect_loadTransfer rfl _ _ _ _ ?_)
    rw [splitOffset_eq_or]
    rfl
  | strhRegPre | strhRegPost | strImmPre | strImmPost | strtImm | strRegPre | strRegPost | strtReg | strbImmPre
  | strbImmPost | strbtImm | strbRegPre | strbRegPost | strbtReg =>
    exact .gated (dataEffect_storeTransfer rfl _ _ _ _ rfl rfl)
  | strhImmPre | strhImmPost =>
    refine .gated (dataEffect_storeTransfer rfl _ _ _ _ ?_ rfl)
    rw [splitOffset_eq_or]
    rfl
  | ldm => exact .gated (.access rfl rfl fun _ => mem_loadMultiple ..)
  | stm => exact .gated (.access rfl rfl nofun)
  | bx | b => exact .gated (.noAccess rfl rfl (State.mem_branch ..))
  | bl => exact .gated (.noAccess rfl rfl (State.mem_setReg ..))
  | swi | tSwi => exact .gated (.service rfl rfl)
  | undMulSpace | undTestReg | undTestRsr | undTestImm | undClass011 | undCopTransfer | undCopOp =>
    exact .gated (.noAccess rfl rfl (State.mem_reportUndefined ..))
  | tLslImm | tLsrImm | tAsrImm | tLslReg | tLsrReg | tAsrReg | tRorReg | tMul | tAddReg | tSubReg | tAddImm3 | tSubImm3
  | tAddImm8 | tSubImm8 | tAdc | tSbc | tNeg | tMovImm8 | tAnd | tEor | tOrr | tBic | tMvn | tAddHi | tMovHi | tAddPc
  | tAddSp | tSpPlus | tSpMinus | tBlHigh | tBlLow => exact .always rfl (.noAccess rfl rfl (State.mem_setReg ..))
  | tCmpImm8 | tCmp | tCmn | tCmpHi | tTst => exact .always rfl (.noAccess rfl rfl (State.mem_withCpsr ..))
  | tBx | tB => exact .always rfl (.noAccess rfl rfl (State.mem_branch ..))
  | tLdsbReg | tLdrReg | tLdrhReg | tLdrbReg | tLdshReg | tLdrbImm =>
    exact .always rfl (dataEffect_thumbLoad rfl _ rfl)
  | tLdrPc | tLdrImm | tLdrSp =>
    refine .always rfl (dataEffect_thumbLoad rfl _ ?_)
    rw [times4_eq_shift]
    rfl
  | tLdrhImm =>
    refine .always rfl (dataEffect_thumbLoad rfl _ ?_)
    rw [times2_eq_shift]
    rfl
  | tStrReg | tStrhReg | tStrbReg | tStrbImm => exact .always rfl (dataEffect_thumbStore rfl _ rfl rfl)
  | tStrImm | tStrSp =>
    refine .always rfl (dataEffect_thumbStore rfl _ ?_ rfl)
    rw [times4_eq_shift]
    rfl
  | tStrhImm =>
    refine .always rfl (dataEffect_thumbStore rfl _ ?_ rfl)
    rw [times2_eq_shift]
    rfl
  | tPush | tStmia => exact .always rfl (.access rfl rfl nofun)
  | tPop r list =>
    refine .always rfl (.access rfl rfl fun _ => ?_)
    cases r <;> simp
  | tLdmia => exact .always rfl (.access rfl rfl fun _ => by simp [State.setLow])
  | tBeq | tBne | tBcs | tBcc | tBmi | tBpl | tBvs | tBvc | tBhi | tBls | tBge | tBlt | tBgt | tBle =>
    exact .always rfl (.noAccess rfl rfl (mem_thumbBranchIf ..))
  | tUndCond14 | tUndB1 | tUndB2 | tUndB6 | tUndB8 | tUndBe | tUndE8 =>
    exact .always rfl (.noAccess rfl rfl (State.mem_reportUndefined ..))

/-! ### What memory keeps, and what is refused -/

/-- What the effect of an instruction that does not store leaves of memory. -/
theorem DataEffect.mem_eq {i : Instr} {s t : State} {o : Result} (h : DataEffect i s o) (hst : storesToMemory i = false)
    (hi : isSwi i = true → s.params.swi ≠ .external) (ho : o = .next t) : t.mem = s.mem := by
  cases h with
  | noAccess hswi hacc hmem => cases ho; exact hmem
  | access hswi hacc hmem =>
    cases whenAdmitted_eq_next ho
    exact hmem hst
  | service hswi hacc => exact mem_softwareInterrupt (hi hswi) ho

/-- Settles O9: a failed condition changes nothing, and the effect of an instruction that does not store keeps memory. -/
theorem onlyStoresChangeMemory : Obligations.OnlyStoresChangeMemory := by
  intro i s t hst hi ht a
  obtain ⟨o, ho, he⟩ := exec_dataEffect i s
  have hmem : t.mem = s.mem := by
    rcases whenPassed_eq_next (he ▸ ht) with rfl | h
    · rfl
    · exact ho.mem_eq hst hi h
  rw [hmem]

/-- Why an instruction whose condition passes is refused: a misaligned access under the policy `refuse` (R77), or a
software interrupt without a service (R466). -/
def RefusalCause (i : Instr) (s : State) (r : Refusal) : Prop :=
  r = .misalignedAccess ∧ s.params.misaligned = .refuse ∧ (∃ a n, accessOf s i = some (a, n) ∧ ¬ Aligned a n) ∨
    r = .noSwiService ∧ isSwi i = true ∧ s.params.swi = .absent

theorem DataEffect.eq_refused_iff {i : Instr} {s : State} {o : Result} (h : DataEffect i s o) (r : Refusal) :
    o = .refused r ↔ RefusalCause i s r := by
  cases h with
  | noAccess hswi hacc hmem => simp [RefusalCause, hswi, hacc]
  | access hswi hacc hmem => simp [RefusalCause, hswi, hacc, whenAdmitted_next_eq_refused]
  | service hswi hacc => simp [RefusalCause, hswi, hacc, softwareInterrupt_eq_refused]

theorem exec_eq_refused_iff (i : Instr) (s : State) (r : Refusal) :
    exec i s = .refused r ↔ condPass (condOf i) s.cpsr = true ∧ RefusalCause i s r := by
  obtain ⟨o, ho, he⟩ := exec_dataEffect i s
  rw [he, whenPassed_eq_refused, ho.eq_refused_iff]

/-- Settles O13: each refusal has its own cause, and two of the four have none. -/
theorem refusalsAreExactly : Obligations.RefusalsAreExactly := by
  intro i s
  simp [exec_eq_refused_iff, RefusalCause]

end Sys2Proof.Machine

/-! # Proofs: the condition codes and the flags of arithmetic

What a condition code tests, that a failed condition leaves a step only its advance (the ARM decode tree keeps the
condition field, `condOf_decodeArm`), and the flags of the adder, which the subtracter inherits
(`subFlags_eq_addFlags_not`). -/

namespace Sys2Proof.Machine

/-! ### Condition codes -/

/-- The seven even codes that test flags. -/
theorem even_condCode {c : CondCode} (heven : c.toNat % 2 = 0) (hlt : c.toNat < 14) :
    c = 0 ∨ c = 2 ∨ c = 4 ∨ c = 6 ∨ c = 8 ∨ c = 10 ∨ c = 12 := by
  revert c
  decide

/-- An odd code tests the negation of what the even code before it tests. -/
theorem condPass_succ {c : CondCode} (p : Psr) (heven : c.toNat % 2 = 0) (hlt : c.toNat < 14) :
    condPass (c + 1) p = !condPass c p := by
  obtain rfl | rfl | rfl | rfl | rfl | rfl | rfl := even_condCode heven hlt <;> simp [condPass, bne]

theorem condPass_fifteen (p : Psr) : condPass 0b1111#4 p = false := rfl

/-- Settles O23: the odd codes by their pairing with the even ones, the others as the evaluator lists them. -/
theorem conditionCodes : Obligations.ConditionCodes :=
  ⟨fun _ => condPass_succ, fun p => ⟨rfl, condPass_fifteen p⟩, fun _ => ⟨rfl, rfl, rfl, rfl, rfl, rfl, rfl⟩⟩

/-! ### A condition that fails -/

/-- A test of the decode tree whose two branches carry one condition. -/
theorem condOf_ite (p : Prop) [Decidable p] {i j : Instr} {c : CondCode} (hi : condOf i = c) (hj : condOf j = c) :
    condOf (if p then i else j) = c := by
  split
  · exact hi
  · exact hj

/-- Every leaf of the ARM decode tree keeps bits 31 to 28 of the word as its condition, undefined words included
(R102). -/
theorem condOf_decodeArm (w : Word) : condOf (decodeArm w) = w.extractLsb' 28 4 := by
  unfold decodeArm decodeMultiplySwap decodeHalf decodeStrh decodeLdrh decodeLdrsb decodeLdrsh decodeDpSpace decodeDpReg
    decodeDpRsr decodeImmSpace decodeDpImm decodeSingleImm decodeSingleReg
  with_reducible repeat' apply condOf_ite
  all_goals rfl

/-- Every instruction stands behind the gate of its condition (R40). -/
theorem exec_of_condition_fails {i : Instr} {s : State} (h : condPass (condOf i) s.cpsr = false) :
    exec i s = .next s := by
  obtain ⟨o, -, he⟩ := exec_dataEffect i s
  rw [he, whenPassed_of_fail h]

/-- What a step of the core fetches in ARM state. -/
theorem fetchCode_of_arm {s : State} (ht : s.cpsr.t = false) : fetchCode s = .arm (s.mem.read32 s.pc) := by
  simp [fetchCode, ht]

theorem advance_of_arm {s : State} (ht : s.cpsr.t = false) :
    advance s = { s with pc := s.pc + 4#32, trace := .fetch s.pc .word :: s.trace } := by
  simp [advance, State.size, fetchWidth, ht]

/-- Settles O7: the fetched instruction carries the condition of its word, and behind a failed condition the step ends
with the advance past it. -/
theorem failedConditionOnlyAdvances : Obligations.FailedConditionOnlyAdvances := by
  refine ⟨condPass_fifteen, fun s hs ht ha h => ?_⟩
  have hfail : condPass ((s.mem.read32 s.pc).extractLsb' 28 4) s.cpsr = false := by
    rcases h with h | h
    · exact h
    · rw [h, condPass_fifteen]
  have hgate : condPass (condOf (decode (fetchCode s))) (advance s).cpsr = false := by
    rw [fetchCode_of_arm ht, decode, condOf_decodeArm, State.cpsr_advance, hfail]
  rw [step_nil hs, coreStep, if_pos ha, exec_of_condition_fails hgate, advance_of_arm ht]

/-! ### The adder -/

section
variable (a b : Word) (cin : Bool)

theorem toNat_r_addFlags : (addFlags a b cin).r.toNat = (a.toNat + b.toNat + cin.toNat) % 2 ^ 32 := rfl

theorem n_addFlags : (addFlags a b cin).n = (addFlags a b cin).r.getLsbD 31 :=
  (addFlags a b cin).r.msb_eq_getLsbD_last

theorem z_addFlags : (addFlags a b cin).z = true ↔ (addFlags a b cin).r.toNat = 0 := by
  simp [addFlags, ← BitVec.toNat_inj]

theorem c_addFlags : (addFlags a b cin).c = true ↔ 2 ^ 32 ≤ a.toNat + b.toNat + cin.toNat := by
  simp [addFlags]

/-- V compares signs: the operands have one sign and the result has the other (R145). -/
theorem v_addFlags_iff_signs : (addFlags a b cin).v = true ↔
    (a.toInt < 0 ↔ b.toInt < 0) ∧ ¬ ((addFlags a b cin).r.toInt < 0 ↔ a.toInt < 0) := by
  simp [addFlags, BitVec.msb_eq_toInt]

/-- The result of the adder is the signed sum, wrapped. -/
theorem toInt_r_addFlags : (addFlags a b cin).r.toInt = (a.toInt + b.toInt + cin.toNat).bmod (2 ^ 32) := by
  have hr : (addFlags a b cin).r = BitVec.ofInt 32 (a.toInt + b.toInt + cin.toNat) := by
    simp [addFlags, BitVec.ofInt_add, BitVec.ofNat_add]
  rw [hr, BitVec.toInt_ofInt]

/-- The signs disagree exactly where the signed sum leaves the signed range. -/
theorem v_addFlags : (addFlags a b cin).v = true ↔
    a.toInt + b.toInt + cin.toNat < -2 ^ 31 ∨ 2 ^ 31 ≤ a.toInt + b.toInt + cin.toNat := by
  have ha := a.toInt_lt
  have ha' := a.le_toInt
  have hb := b.toInt_lt
  have hb' := b.le_toInt
  have hc := cin.toNat_le
  rw [v_addFlags_iff_signs, toInt_r_addFlags, Int.bmod_def]
  omega

/-! ### The subtracter -/

/-- The signed value of the complement. -/
theorem toInt_complement : (~~~b).toInt = -1 - b.toInt := by
  have hb := b.isLt
  rw [BitVec.toInt_eq_toNat_cond, BitVec.toInt_eq_toNat_cond, BitVec.toNat_not]
  omega

/-- Subtraction is addition of the complement, as the borrow is the complement of the carry. -/
theorem subFlags_eq_addFlags_not : subFlags a b cin = addFlags a (~~~b) cin := by
  have hb := b.isLt
  have hr : BitVec.ofInt 32 (a.toNat - b.toNat - (1 - cin.toNat)) =
      BitVec.ofNat 32 (a.toNat + (2 ^ 32 - 1 - b.toNat) + cin.toNat) := by
    apply BitVec.eq_of_toNat_eq
    rw [BitVec.toNat_ofInt, BitVec.toNat_ofNat]
    omega
  have hcarry : (0 : Int) ≤ a.toNat - b.toNat - (1 - cin.toNat) ↔
      2 ^ 32 ≤ a.toNat + (2 ^ 32 - 1 - b.toNat) + cin.toNat := by
    omega
  have hsign : a.msb ≠ b.msb ↔ a.msb = (~~~b).msb := by
    rw [BitVec.msb_not]
    cases a.msb <;> cases b.msb <;> decide
  simp only [subFlags, addFlags, BitVec.toNat_not, hr, hcarry, hsign]

end

/-- Settles O20: the result, then the four flags. -/
theorem adderFlags : Obligations.AdderFlags := fun a b cin =>
  ⟨toNat_r_addFlags a b cin, n_addFlags a b cin, z_addFlags a b cin, c_addFlags a b cin, v_addFlags a b cin⟩

/-- Settles O21: the subtracter is the adder of the complement, whose unsigned value is `2^32 - 1 - b` and whose signed
value is `-1 - b`. -/
theorem subtracterFlags : Obligations.SubtracterFlags := by
  intro a b cin
  have hb := b.isLt
  have hc := cin.toNat_le
  rw [subFlags_eq_addFlags_not]
  refine ⟨?_, n_addFlags .., z_addFlags .., ?_, ?_⟩
  · rw [toNat_r_addFlags, BitVec.toNat_not]
    omega
  · rw [c_addFlags, BitVec.toNat_not]
    omega
  · rw [v_addFlags, toInt_complement]
    omega

end Sys2Proof.Machine

/-! # Proofs: ARM data processing and PSR transfer

What a data-processing instruction does behind its gate is said once, from its fields (`exec_of_dpForm`); MSR and MRS
go through the fields that they write and the image that they read. -/

namespace Sys2Proof.Machine

/-! ### The effect of a data-processing instruction -/

/-- The operation that the fields of a data-processing instruction name, on its second operand. -/
def dpEffect (f : DpForm) (s : State) : State :=
  let operand := f.operand.value s
  match f.op with
  | .and => opAnd f.sf f.rn f.rd operand s
  | .eor => opEor f.sf f.rn f.rd operand s
  | .sub => opSub f.sf f.rn f.rd operand s
  | .rsb => opRsb f.sf f.rn f.rd operand s
  | .add => opAdd f.sf f.rn f.rd operand s
  | .adc => opAdc f.sf f.rn f.rd operand s
  | .sbc => opSbc f.sf f.rn f.rd operand s
  | .rsc => opRsc f.sf f.rn f.rd operand s
  | .tst => opTst f.rn operand s
  | .teq => opTeq f.rn operand s
  | .cmp => opCmp f.rn operand s
  | .cmn => opCmn f.rn operand s
  | .orr => opOrr f.sf f.rn f.rd operand s
  | .mov => opMov f.sf f.rd operand s
  | .bic => opBic f.sf f.rn f.rd operand s
  | .mvn => opMvn f.sf f.rd operand s

/-- The 48 data-processing instructions are one operation of their fields, behind the gate of their condition. -/
theorem exec_of_dpForm {i : Instr} {f : DpForm} (s : State) (hf : dpForm i = some f) :
    exec i s = whenPassed f.c s (.next (dpEffect f s)) := by
  cases i with
  | andImm | andReg | andRsr | eorImm | eorReg | eorRsr | subImm | subReg | subRsr | rsbImm | rsbReg | rsbRsr
  | addImm | addReg | addRsr | adcImm | adcReg | adcRsr | sbcImm | sbcReg | sbcRsr | rscImm | rscReg | rscRsr
  | tstImm | tstReg | tstRsr | teqImm | teqReg | teqRsr | cmpImm | cmpReg | cmpRsr | cmnImm | cmnReg | cmnRsr
  | orrImm | orrReg | orrRsr | movImm | movReg | movRsr | bicImm | bicReg | bicRsr | mvnImm | mvnReg | mvnRsr =>
    cases hf
    rfl
  | _ => cases hf

theorem exec_of_dpForm_of_pass {i : Instr} {f : DpForm} {s : State} (hf : dpForm i = some f)
    (hc : condPass f.c s.cpsr = true) : exec i s = .next (dpEffect f s) := by
  rw [exec_of_dpForm s hf, whenPassed_of_pass hc]

/-- The logical operations go through the logical template (R181). -/
theorem dpEffect_of_logicalValue {f : DpForm} {r : Word} {s : State}
    (hr : logicalValue (s.reg f.rn) (f.operand.value s).1 f.op = some r) :
    dpEffect f s = dpLogical f.sf f.rd r (f.operand.value s).2 s := by
  obtain ⟨c, op, sf, rn, rd, operand⟩ := f
  cases op with
  | and | eor | orr | mov | bic | mvn => cases hr; rfl
  | _ => cases hr

/-- The arithmetic operations go through the arithmetic template, which discards the shifter carry (R182). -/
theorem dpEffect_of_arithValue {f : DpForm} {x : Flagged} {s : State}
    (hx : arithValue (s.reg f.rn) (f.operand.value s).1 s.cpsr.c f.op = some x) :
    dpEffect f s = dpArith f.sf f.rd x s := by
  obtain ⟨c, op, sf, rn, rd, operand⟩ := f
  cases op with
  | sub | rsb | add | adc | sbc | rsc => cases hx; rfl
  | _ => cases hx

/-- The tests replace the status register; TEQ finds a zero exactly at equal operands. -/
theorem dpEffect_of_testStatus {f : DpForm} {p : Psr} {s : State}
    (hp : testStatus (s.reg f.rn) (f.operand.value s).1 (f.operand.value s).2 s.cpsr f.op = some p) :
    dpEffect f s = s.withCpsr p := by
  obtain ⟨c, op, sf, rn, rd, operand⟩ := f
  cases op with
  | tst | cmp | cmn => cases hp; rfl
  | teq =>
    cases hp
    simp [dpEffect, opTeq, dpTestLogical, Psr.setNZC, BitVec.xor_eq_zero_iff]
  | _ => cases hp

/-- The logical flags, N as bit 31 of the result. -/
theorem setNZC_eq (p : Psr) (r : Word) (c : Bool) :
    p.setNZC r c = { p with n := r.getLsbD 31, z := decide (r = 0#32), c := c } := by
  rw [Psr.setNZC, BitVec.msb_eq_getLsbD_last]

/-- Settles O35: the six operations share the logical template. -/
theorem logicalDataProcessing : Obligations.LogicalDataProcessing := by
  intro i f r s hf hr hc
  rw [← setNZC_eq]
  obtain ⟨hregs, hstate⟩ := dpLogical_spec f.sf f.rd r (f.operand.value s).2 s
  exact ⟨_, dpEffect_of_logicalValue hr ▸ exec_of_dpForm_of_pass hf hc, hregs, hstate⟩

/-- Settles O36: the six operations share the arithmetic template. -/
theorem arithmeticDataProcessing : Obligations.ArithmeticDataProcessing := by
  intro i f x s hf hx hc
  obtain ⟨hregs, hstate⟩ := dpArith_spec f.sf f.rd x s
  exact ⟨_, dpEffect_of_arithValue hx ▸ exec_of_dpForm_of_pass hf hc, hregs, hstate⟩

/-- Settles O37: a test is a change of the status register. -/
theorem testsWriteOnlyFlags : Obligations.TestsWriteOnlyFlags := by
  intro i f p s hf hp hc
  rw [exec_of_dpForm_of_pass hf hc, dpEffect_of_testStatus hp]
  rfl

/-! ### PSR transfer -/

theorem exec_mrs_of_pass {c : CondCode} {s : State} (p : Bool) (rd : Reg) (hc : condPass c s.cpsr = true) :
    exec (.mrs c p rd) s = .next (s.setReg rd (psrRead p s)) :=
  whenPassed_of_pass hc _

theorem exec_msrReg_of_pass {c : CondCode} {s : State} (p ff : Bool) (ign : BitVec 2) (fc : Bool) (rm : Reg)
    (hc : condPass c s.cpsr = true) : exec (.msrReg c p ff ign fc rm) s = .next (psrWrite p ff fc (s.reg rm) s) :=
  whenPassed_of_pass hc _

theorem exec_msrImm_of_pass {c : CondCode} {s : State} (p ff : Bool) (ign : BitVec 2) (fc : Bool) (rot : BitVec 4)
    (imm : BitVec 8) (hc : condPass c s.cpsr = true) :
    exec (.msrImm c p ff ign fc rot imm) s = .next (psrWrite p ff fc (rotatedImm rot imm s.cpsr.c).1 s) :=
  whenPassed_of_pass hc _

/-- Settles O38: MRS is one register write. -/
theorem mrsReadsStatus : Obligations.MrsReadsStatus := by
  intro c p rd s hc
  obtain ⟨hregs, hstate⟩ := setReg_spec s rd (psrRead p s)
  refine ⟨_, exec_mrs_of_pass p rd hc, ?_, hstate⟩
  cases p <;> exact hregs

/-- The fields that MSR writes, one by one. -/
theorem psrFields_eq_msrFields (ff fc : Bool) (v : Word) (p : Psr) : psrFields ff fc v p = msrFields ff fc v p := by
  cases ff <;> cases fc <;>
    simp [psrFields, msrFields, Psr.withFlagsOf, Psr.withControlOf, BitVec.setWidth_eq_extractLsb']

/-- MSR of a saved status register, where the mode has one. -/
theorem psrWrite_saved_of_some {s : State} {b : SpsrBank} (ff fc : Bool) (v : Word) (hb : spsrBank s.cpsr.m = some b) :
    psrWrite true ff fc v s = { s with spsr := s.spsr.set b (psrFields ff fc v (s.spsr.get b)) } := by
  simp [psrWrite, hb]

theorem psrWrite_saved_of_none {s : State} (ff fc : Bool) (v : Word) (hb : spsrBank s.cpsr.m = none) :
    psrWrite true ff fc v s = s := by
  simp [psrWrite, hb]

/-- MSR of a saved status register: the mode's own, if it has one, and no other part of the state. -/
theorem psrWrite_saved_spec (ff fc : Bool) (v : Word) (s : State) :
    psrWrite true ff fc v s = { s with spsr := (psrWrite true ff fc v s).spsr } ∧
      ∀ b, (psrWrite true ff fc v s).spsr.get b =
        if spsrBank s.cpsr.m = some b then psrFields ff fc v (s.spsr.get b) else s.spsr.get b := by
  cases hb : spsrBank s.cpsr.m with
  | none => simp [psrWrite_saved_of_none ff fc v hb]
  | some b' =>
    rw [psrWrite_saved_of_some ff fc v hb]
    refine ⟨rfl, fun b => ?_⟩
    by_cases h : b = b'
    · simp [h]
    · simp [h, Ne.symm h]

/-- Settles O39: both forms are `psrWrite` of their operand. -/
theorem msrWritesSelectedFields : Obligations.MsrWritesSelectedFields := by
  intro i c p ff fc v s hi hc
  have hexec : exec i s = .next (psrWrite p ff fc v s) := by
    rcases hi with ⟨ign, rm, rfl, rfl⟩ | ⟨ign, rot, b, rfl, rfl⟩
    · exact exec_msrReg_of_pass p ff ign fc rm hc
    · exact exec_msrImm_of_pass p ff ign fc rot b hc
  refine ⟨?_, ?_⟩
  · rintro rfl
    rw [hexec, ← psrFields_eq_msrFields]
    rfl
  · rintro rfl
    obtain ⟨hstate, hsaved⟩ := psrWrite_saved_spec ff fc v s
    simp only [← psrFields_eq_msrFields]
    exact ⟨_, hexec, hstate, hsaved⟩

/-! ### Reading back -/

/-- Where each field of a status register stands in its image (R25). -/
theorem getLsbD_toWord (p : Psr) {k : Nat} (hk : k < 32) : p.toWord.getLsbD k =
    if k < 5 then p.m.getLsbD k
    else if k = 5 then p.t
    else if k = 6 then p.f
    else if k = 7 then p.i
    else if k < 28 then false
    else if k = 28 then p.v
    else if k = 29 then p.c
    else if k = 30 then p.z
    else p.n := by
  simp only [Psr.toWord, BitVec.getLsbD_append]
  interval_cases k <;> simp

/-- The full write of a status register, bit by bit: the unused bits of the word are lost (R25, R201). -/
theorem toWord_withControlOf_withFlagsOf (p : Psr) (v : Word) :
    ((p.withFlagsOf v).withControlOf v).toWord = v &&& 0xF00000FF#32 := by
  refine BitVec.eq_of_getLsbD_eq fun k hk => ?_
  rw [getLsbD_toWord _ hk]
  interval_cases k <;> simp [Psr.withFlagsOf, Psr.withControlOf]

/-- The flags-only write sets the four flags to those of the word. -/
theorem toWord_withFlagsOf_flags (p : Psr) (v : Word) :
    (p.withFlagsOf v).toWord &&& 0xF0000000#32 = v &&& 0xF0000000#32 := by
  refine BitVec.eq_of_getLsbD_eq fun k hk => ?_
  rw [BitVec.getLsbD_and, getLsbD_toWord _ hk]
  interval_cases k <;> simp [Psr.withFlagsOf]

/-- The flags-only write leaves the low byte. -/
theorem toWord_withFlagsOf_control (p : Psr) (v : Word) :
    (p.withFlagsOf v).toWord &&& 0xFF#32 = p.toWord &&& 0xFF#32 := by
  refine BitVec.eq_of_getLsbD_eq fun k hk => ?_
  rw [BitVec.getLsbD_and, BitVec.getLsbD_and, getLsbD_toWord _ hk, getLsbD_toWord _ hk]
  interval_cases k <;> simp [Psr.withFlagsOf]

/-- A register other than r15 reads as it was last written. -/
theorem reg_setReg_same (s : State) {i : Reg} (v : Word) (hi : i ≠ 15#4) : (s.setReg i v).reg i = v := by
  obtain ⟨q, hq⟩ := Option.ne_none_iff_exists'.1 (physReg_eq_none.not.2 hi : physReg s.cpsr.m i ≠ none)
  rw [reg_eq_get (s := s.setReg i v) ((State.cpsr_setReg s i v).symm ▸ hq), State.get_setReg, if_pos hq]

/-- An MSR and then an MRS read back through the status register that the MSR left. -/
theorem reg_of_msr_then_mrs {s t u : State} {p ff fc : Bool} {ign : BitVec 2} {rm rd : Reg} (hrd : rd ≠ 15#4)
    (ht : exec (.msrReg 14 p ff ign fc rm) s = .next t) (hu : exec (.mrs 14 p rd) t = .next u) :
    u.reg rd = psrRead p (psrWrite p ff fc (s.reg rm) s) := by
  rw [exec_msrReg_of_pass p ff ign fc rm rfl] at ht
  cases ht
  rw [exec_mrs_of_pass p rd rfl] at hu
  cases hu
  exact reg_setReg_same _ _ hrd

/-- What MRS reads of the saved status register that MSR has written. -/
theorem psrRead_psrWrite_saved {s : State} {b : SpsrBank} (ff fc : Bool) (v : Word) (hb : spsrBank s.cpsr.m = some b) :
    psrRead true (psrWrite true ff fc v s) = (psrFields ff fc v (s.spsr.get b)).toWord := by
  rw [psrWrite_saved_of_some ff fc v hb]
  simp [psrRead, State.readSpsr, hb]

/-- What MRS reads of the CPSR that MSR has written. -/
theorem psrRead_psrWrite_current (ff fc : Bool) (v : Word) (s : State) :
    psrRead false (psrWrite false ff fc v s) = (psrFields ff (fc && s.privileged) v s.cpsr).toWord := rfl

/-- Settles O40: the full write reads back through all the fields, the flags-only write through the flags. -/
theorem msrThenMrs : Obligations.MsrThenMrs := by
  intro s t u p ign rm rd hrd
  refine ⟨fun ht hu hp => ?_, fun ht hu => ?_⟩
  · rw [reg_of_msr_then_mrs hrd ht hu]
    cases p with
    | false =>
      have hpriv : s.privileged = true := hp
      rw [psrRead_psrWrite_current, hpriv]
      exact toWord_withControlOf_withFlagsOf s.cpsr (s.reg rm)
    | true =>
      obtain ⟨b, hb⟩ := Option.isSome_iff_exists.1 hp
      rw [psrRead_psrWrite_saved true true _ hb]
      exact toWord_withControlOf_withFlagsOf (s.spsr.get b) (s.reg rm)
  · rw [reg_of_msr_then_mrs hrd ht hu, psrRead_psrWrite_current]
    exact ⟨toWord_withFlagsOf_flags s.cpsr (s.reg rm), toWord_withFlagsOf_control s.cpsr (s.reg rm)⟩

end Sys2Proof.Machine

/-! # Proofs: ARM multiplies and swaps

Every multiply has one of two effects, said once for all results (`mulResult_spec`, `mulLongResult_spec`); the results
that the statements give as numbers are those of the model, as words of the width to which they are cut. -/

namespace Sys2Proof.Machine

/-! ### The effects of the multiplies -/

/-- Two register writes in order, after a change of the status register that keeps the mode and T. -/
theorem setReg_setReg_withCpsr_spec {s : State} {p : Psr} (hp : SameControl s.cpsr p) (i j : Reg) (v w : Word) :
    let t := ((s.withCpsr p).setReg i v).setReg j w
    RegistersAfter [(s.phys i, v), (s.phys j, w)] s.cpsr.t s t ∧ t = { s with regs := t.regs, pc := t.pc, cpsr := p } := by
  obtain ⟨hm, -, -, ht⟩ := hp
  have hfirst : RegistersAfter [(s.phys i, v)] ((s.withCpsr p).setReg i v).cpsr.t s ((s.withCpsr p).setReg i v) := by
    rw [State.cpsr_setReg, State.phys, ← hm]
    exact (setReg_withCpsr_spec s p i v).1
  have hboth := registersAfter_writeAt (s.phys j) w hfirst
  rw [State.cpsr_setReg, State.cpsr_withCpsr, ht] at hboth
  refine ⟨?_, ((SameButRegs.refl (s.withCpsr p)).setReg i v).setReg j w⟩
  rw [State.setReg, State.cpsr_setReg, State.cpsr_withCpsr, hm]
  exact hboth

/-- The 32-bit multiplies (R230, R231). -/
theorem mulResult_spec (sf : Bool) (rd : Reg) (r : Word) (s : State) :
    RegistersAfter [(s.phys rd, r)] s.cpsr.t s (mulResult sf rd r s) ∧
      mulResult sf rd r s =
        { s with regs := (mulResult sf rd r s).regs
                 pc := (mulResult sf rd r s).pc
                 cpsr := if sf then s.cpsr.setNZC r false else s.cpsr } := by
  cases sf
  · exact setReg_spec s rd r
  · exact setReg_withCpsr_spec s (s.cpsr.setNZC r false) rd r

/-- The 64-bit multiplies (R232 to R235, R238). -/
theorem mulLongResult_spec (sf : Bool) (rdHi rdLo : Reg) (r : BitVec 64) (s : State) :
    RegistersAfter [(s.phys rdLo, r.extractLsb' 0 32), (s.phys rdHi, r.extractLsb' 32 32)] s.cpsr.t s
        (mulLongResult sf rdHi rdLo r s) ∧
      mulLongResult sf rdHi rdLo r s =
        { s with regs := (mulLongResult sf rdHi rdLo r s).regs
                 pc := (mulLongResult sf rdHi rdLo r s).pc
                 cpsr := if sf then s.cpsr.setLong r else s.cpsr } := by
  rw [mulLongResult, BitVec.setWidth_eq_extractLsb' (by decide)]
  cases sf
  · exact setReg_setReg_withCpsr_spec (.refl s.cpsr) rdLo rdHi _ _
  · exact setReg_setReg_withCpsr_spec (sameControl_setLong s.cpsr r) rdLo rdHi _ _

/-- The flags of a 64-bit product, N as bit 63. -/
theorem setLong_eq (p : Psr) (r : BitVec 64) :
    p.setLong r = { p with n := r.getLsbD 63, z := decide (r = 0#64), c := false } := by
  rw [Psr.setLong, BitVec.msb_eq_getLsbD_last]

/-! ### The products as numbers -/

/-- The low 32 bits of a product and a sum are those of the operands' numbers. -/
theorem ofNat_mul_add (a b : Word) (n : Nat) :
    BitVec.ofNat 32 (a.toNat * b.toNat + n) = a * b + BitVec.ofNat 32 n := by
  simp [BitVec.ofNat_add, BitVec.ofNat_mul]

/-- The accumulator holds RdHi in its upper half (R233). -/
theorem longAcc_eq_ofNat (rdHi rdLo : Reg) (s : State) :
    longAcc rdHi rdLo s = BitVec.ofNat 64 ((s.reg rdHi).toNat * 2 ^ 32 + (s.reg rdLo).toNat) := by
  have hlo := (s.reg rdLo).isLt
  have hhi := (s.reg rdHi).isLt
  apply BitVec.eq_of_toNat_eq
  rw [longAcc, BitVec.toNat_append, ← Nat.shiftLeft_add_eq_or_of_lt hlo, Nat.shiftLeft_eq, BitVec.toNat_ofNat]
  omega

theorem eq_productU {a b : Word} {r : BitVec 64} (h : r.toNat = a.toNat * b.toNat) : r = productU a b := by
  rw [productU, ← h, BitVec.ofNat_toNat, BitVec.setWidth_eq]

theorem eq_productS {a b : Word} {r : BitVec 64} (h : r.toInt = a.toInt * b.toInt) : r = productS a b := by
  rw [productS, ← h, BitVec.ofInt_toInt]

/-- The unsigned accumulation wraps at 64 bits. -/
theorem eq_productU_add_ofNat {a b : Word} {r : BitVec 64} {acc : Nat}
    (h : r.toNat = (a.toNat * b.toNat + acc) % 2 ^ 64) : r = productU a b + BitVec.ofNat 64 acc := by
  apply BitVec.eq_of_toNat_eq
  rw [productU, ← BitVec.ofNat_add, BitVec.toNat_ofNat, h]

/-- The signed accumulation adds the accumulator's pattern, whatever its sign. -/
theorem ofInt_mul_add_eq (a b : Word) (acc : Nat) :
    BitVec.ofInt 64 (a.toInt * b.toInt + acc) = productS a b + BitVec.ofNat 64 acc := by
  rw [productS, BitVec.ofInt_add, BitVec.ofInt_natCast]

/-! ### The multiplies -/

/-- Settles O41: both forms are `mulResult` of their low 32 bits. -/
theorem multiply : Obligations.Multiply := by
  intro i c sf rd rs rm add s hi hc r
  have hexec : exec i s = .next (mulResult sf rd r s) := by
    have hr : r = s.reg rm * s.reg rs + BitVec.ofNat 32 add := ofNat_mul_add ..
    rcases hi with ⟨ign, rfl, rfl⟩ | ⟨rn, rfl, rfl⟩
    · rw [hr, BitVec.add_zero]
      exact whenPassed_of_pass hc _
    · rw [hr, BitVec.ofNat_toNat, BitVec.setWidth_eq]
      exact whenPassed_of_pass hc _
  rw [← setNZC_eq]
  obtain ⟨hregs, hstate⟩ := mulResult_spec sf rd r s
  exact ⟨_, hexec, hregs, hstate⟩

/-- Settles O42: the four forms are `mulLongResult` of their 64-bit result. -/
theorem multiplyLong : Obligations.MultiplyLong := by
  intro i c sf rdHi rdLo rs rm r s hi hc
  have hexec : exec i s = .next (mulLongResult sf rdHi rdLo r s) := by
    rcases hi with ⟨rfl, hr⟩ | ⟨rfl, hr⟩ | ⟨rfl, hr⟩ | ⟨rfl, hr⟩
    · rw [eq_productU hr]
      exact whenPassed_of_pass hc _
    · rw [eq_productU_add_ofNat hr, ← longAcc_eq_ofNat]
      exact whenPassed_of_pass hc _
    · rw [eq_productS hr]
      exact whenPassed_of_pass hc _
    · rw [hr, ofInt_mul_add_eq, ← longAcc_eq_ofNat]
      exact whenPassed_of_pass hc _
  rw [← setLong_eq]
  obtain ⟨hregs, hstate⟩ := mulLongResult_spec sf rdHi rdLo r s
  exact ⟨_, hexec, hregs, hstate⟩

/-! ### The swaps -/

/-- A swap: the value from before the store goes to the register, the store is made at the same address. -/
theorem swapWith_spec {k : LoadKind} {rn : Reg} {s : State} (rd rm : Reg)
    (h : Aligned (s.reg rn) k.width ∨ s.params.misaligned = .rotate) :
    ∃ t, swapWith k rn rd rm s = .next t ∧ RegistersAfter [(s.phys rd, loadValue s.mem k (s.reg rn))] s.cpsr.t s t ∧
      Stored (busAddr (s.reg rn) k.width) k.width (s.reg rm) s.mem t.mem ∧
      t = { s with regs := t.regs
                   pc := t.pc
                   mem := t.mem
                   trace := .write (busAddr (s.reg rn) k.width) k.width (truncateTo k.width (s.reg rm)) ::
                     loadEvent k (s.reg rn) :: s.trace } := by
  obtain ⟨hregs, hstate⟩ := setReg_spec ((s.load k (s.reg rn)).store (s.reg rn) k.width (s.reg rm)) rd
    (loadValue s.mem k (s.reg rn))
  refine ⟨_, whenAdmitted_of_admitted _ h, hregs, ?_, hstate.trans (by rw [hstate]; rfl)⟩
  rw [State.mem_setReg]
  exact stored_store ..

/-- Settles O43: a word or a byte is read at the address that it is written at. -/
theorem swap : Obligations.Swap := by
  intro i c k rn rd rm ign s hi hc hacc
  obtain ⟨hexec, hevent⟩ : exec i s = swapWith k rn rd rm s ∧
      loadEvent k (s.reg rn) = .read (busAddr (s.reg rn) k.width) k.width := by
    rcases hi with ⟨rfl, rfl⟩ | ⟨rfl, rfl⟩ <;> exact ⟨whenPassed_of_pass hc _, rfl⟩
  rw [hexec, ← hevent]
  exact swapWith_spec rd rm hacc

end Sys2Proof.Machine

/-! # Proofs: ARM single, halfword and signed transfers

The 24 word and byte transfers and the 16 halfword and signed ones are one operation of their fields
(`exec_of_singleForm`, `exec_of_halfForm`), whose load and store are those of `loadTransfer_spec` and
`storeTransfer_spec`. -/

namespace Sys2Proof.Machine

/-! ### The transfer of a form -/

/-- The address accessed and the address written back (R250, R264). -/
def TransferForm.indexed (f : TransferForm) (s : State) : Indexed := ⟨f.addr s, f.ea s⟩

/-- What a transfer with these fields does once its condition passes. -/
def transferEffect (f : TransferForm) (s : State) : Result :=
  match f.access with
  | .load k => loadTransfer k f.user f.wb f.rn f.rd (f.indexed s) s
  | .store n => storeTransfer n f.user f.wb f.rn f.rd (f.indexed s) s

section
variable {f : TransferForm} {s : State}

theorem transferEffect_of_load {k : LoadKind} (ha : f.access = .load k) :
    transferEffect f s = loadTransfer k f.user f.wb f.rn f.rd (f.indexed s) s := by
  rw [transferEffect, ha]

theorem transferEffect_of_store {n : Width} (ha : f.access = .store n) :
    transferEffect f s = storeTransfer n f.user f.wb f.rn f.rd (f.indexed s) s := by
  rw [transferEffect, ha]

/-- A load of a form: one read, the write-back, then the transferred register (R251). -/
theorem transferEffect_load_spec {k : LoadKind} (ha : f.access = .load k)
    (h : Aligned (f.addr s) k.width ∨ s.params.misaligned = .rotate) :
    ∃ t, transferEffect f s = .next t ∧
      RegistersAfter (f.baseWrite s ++ [(f.rdPhys s, loadValue s.mem k (f.addr s))]) s.cpsr.t s t ∧
      t = { s with regs := t.regs, pc := t.pc, trace := loadEvent k (f.addr s) :: s.trace } := by
  rw [transferEffect_of_load ha]
  exact loadTransfer_spec (x := f.indexed s) h

/-- A store of a form: the value from before the write-back, then the write-back (R251). -/
theorem transferEffect_store_spec {n : Width} (ha : f.access = .store n)
    (h : Aligned (f.addr s) n ∨ s.params.misaligned = .rotate) :
    ∃ t, transferEffect f s = .next t ∧ RegistersAfter (f.baseWrite s) s.cpsr.t s t ∧
      Stored (busAddr (f.addr s) n) n (transferReg f.user f.rd s) s.mem t.mem ∧
      t = { s with regs := t.regs
                   pc := t.pc
                   mem := t.mem
                   trace := .write (busAddr (f.addr s) n) n (truncateTo n (transferReg f.user f.rd s)) ::
                     s.trace } := by
  rw [transferEffect_of_store ha]
  exact storeTransfer_spec (x := f.indexed s) h

end

/-! ### Word and byte transfers -/

/-- The 24 word and byte transfers are one operation of their fields, behind the gate of their condition. -/
theorem exec_of_singleForm {i : Instr} {f : TransferForm} (s : State) (hf : singleForm i = some f) :
    exec i s = whenPassed f.c s (transferEffect f s) := by
  cases i with
  | ldrImmPre | ldrImmPost | ldrtImm | ldrRegPre | ldrRegPost | ldrtReg | ldrbImmPre | ldrbImmPost | ldrbtImm
  | ldrbRegPre | ldrbRegPost | ldrbtReg | strImmPre | strImmPost | strtImm | strRegPre | strRegPost | strtReg
  | strbImmPre | strbImmPost | strbtImm | strbRegPre | strbRegPost | strbtReg =>
    cases hf
    rfl
  | _ => cases hf

theorem exec_of_singleForm_of_pass {i : Instr} {f : TransferForm} {s : State} (hf : singleForm i = some f)
    (hc : condPass f.c s.cpsr = true) : exec i s = transferEffect f s := by
  rw [exec_of_singleForm s hf, whenPassed_of_pass hc]

/-- Settles O44: every form is a load of its fields. -/
theorem singleLoads : Obligations.SingleLoads := by
  intro i f k s hf ha hc hacc
  rw [exec_of_singleForm_of_pass hf hc]
  exact transferEffect_load_spec ha hacc

/-- Settles O45: every form is a store of its fields, of the value that its storage holds. -/
theorem singleStores : Obligations.SingleStores := by
  intro i f n s hf ha hc hacc v
  have hv : transferReg f.user f.rd s = v := transferReg_eq f.user f.rd s
  rw [exec_of_singleForm_of_pass hf hc, ← hv]
  exact transferEffect_store_spec ha hacc

/-! ### Halfword and signed transfers -/

/-- The 16 halfword and signed transfers are one operation of their fields, behind the gate of their condition. -/
theorem exec_of_halfForm {i : Instr} {f : TransferForm} (s : State) (hf : halfForm i = some f) :
    exec i s = whenPassed f.c s (transferEffect f s) := by
  cases i with
  | strhRegPre | strhRegPost | ldrhRegPre | ldrhRegPost | ldrsbRegPre | ldrsbRegPost | ldrshRegPre | ldrshRegPost =>
    cases hf
    rfl
  | strhImmPre | strhImmPost | ldrhImmPre | ldrhImmPost | ldrsbImmPre | ldrsbImmPost | ldrshImmPre | ldrshImmPost =>
    cases hf
    rw [← splitOffset_eq_or]
    rfl
  | _ => cases hf

theorem exec_of_halfForm_of_pass {i : Instr} {f : TransferForm} {s : State} (hf : halfForm i = some f)
    (hc : condPass f.c s.cpsr = true) : exec i s = transferEffect f s := by
  rw [exec_of_halfForm s hf, whenPassed_of_pass hc]

/-- None of the halfword and signed transfers is a forced-user form, and those that store, store a halfword (R264,
R268). -/
theorem user_and_store_of_halfForm {i : Instr} {f : TransferForm} (hf : halfForm i = some f) :
    f.user = false ∧ ∀ n, f.access = .store n → n = .half := by
  cases i with
  | strhRegPre | strhRegPost | strhImmPre | strhImmPost =>
    cases hf
    exact ⟨rfl, fun _ ha => (Access.store.inj ha).symm⟩
  | ldrhRegPre | ldrhRegPost | ldrhImmPre | ldrhImmPost | ldrsbRegPre | ldrsbRegPost | ldrsbImmPre | ldrsbImmPost
  | ldrshRegPre | ldrshRegPost | ldrshImmPre | ldrshImmPost =>
    cases hf
    exact ⟨rfl, nofun⟩
  | _ => cases hf

/-- Without a forced-user form, the transferred register is that of the current mode. -/
theorem rdPhys_of_not_user {f : TransferForm} (hu : f.user = false) (s : State) : f.rdPhys s = s.phys f.rd := by
  simp [TransferForm.rdPhys, hu, State.phys]

/-- Settles O46: every form is a load, or a store of a halfword, of its fields in the current mode. -/
theorem halfwordAndSignedTransfers : Obligations.HalfwordAndSignedTransfers := by
  intro i f s hf hc hacc
  obtain ⟨hu, hstore⟩ := user_and_store_of_halfForm hf
  rw [exec_of_halfForm_of_pass hf hc]
  refine ⟨fun k ha => ?_, fun n ha => ?_⟩
  · rw [ha] at hacc
    rw [← rdPhys_of_not_user hu]
    exact transferEffect_load_spec ha hacc
  · rw [ha] at hacc
    obtain rfl := hstore n ha
    have hv : transferReg f.user f.rd s = s.reg f.rd := by rw [hu]; rfl
    rw [← hv]
    exact transferEffect_store_spec ha hacc

end Sys2Proof.Machine

/-! # Proofs: ARM load multiple, branches, software interrupts and undefined reports

LDM and the branches are assembled from what their shared operations do (`loadMultiple_spec`, `setReg_spec`); a software
interrupt is the fold of its service; and all fourteen undefined encodings make one report (`exec_of_undefinedForm`). -/

namespace Sys2Proof.Machine

/-! ### Load multiple -/

theorem exec_ldm_of_pass {c : CondCode} {p u ub w : Bool} {rn : Reg} {list : BitVec 16} {s : State}
    (hc : condPass c s.cpsr = true)
    (hacc : Aligned (blockStart p u (s.reg rn) (regsOf list).length) .word ∨ s.params.misaligned = .rotate) :
    exec (.ldm c p u ub w rn list) s =
      .next (loadMultiple ub w rn (blockStart p u (s.reg rn) (regsOf list).length)
        (blockFinal u (s.reg rn) (regsOf list).length) list s) :=
  (whenPassed_of_pass hc _).trans (whenAdmitted_of_admitted _ hacc)

/-- Settles O48, from what a load multiple does. -/
theorem loadMultipleInEveryForm : Obligations.LoadMultiple := by
  intro c p u ub w rn list s n start pcInList m cpsr hc hacc
  obtain ⟨hregs, hstate⟩ := loadMultiple_spec ub w rn start (blockFinal u (s.reg rn) n) list s
  exact ⟨_, exec_ldm_of_pass hc hacc, hregs, hstate⟩

/-! ### Branches -/

section
variable {s : State} {a : Word}

theorem r15_of_arm (ht : s.cpsr.t = false) (hpc : s.pc = a + 4#32) : s.r15 = a + 8#32 := by
  simp [State.r15, State.size, ht, hpc, BitVec.add_assoc]

theorem instrAddr_of_arm (ht : s.cpsr.t = false) (hpc : s.pc = a + 4#32) : s.instrAddr = a := by
  simp [State.instrAddr, State.size, ht, hpc]

theorem instrAddr_of_thumb (ht : s.cpsr.t = true) (hpc : s.pc = a + 2#32) : s.instrAddr = a := by
  simp [State.instrAddr, State.size, ht, hpc]

/-- A register operand in ARM state, r15 being the address of the instruction plus 8 (R32). -/
theorem ite_reg_of_arm (rm : Reg) (ht : s.cpsr.t = false) (hpc : s.pc = a + 4#32) :
    (if rm = 15#4 then a + 8#32 else s.reg rm) = s.reg rm := by
  split_ifs with h
  · rw [h, ← r15_of_arm ht hpc]
    rfl
  · rfl

end

/-- A field with two zeros below it, sign-extended, is the sign-extended field times 4 (R110). -/
theorem branchOffset24_eq_shift (off : BitVec 24) : branchOffset24 off = off.signExtend 32 <<< 2 := by
  ext i hi
  simp only [branchOffset24, BitVec.getElem_signExtend, BitVec.getElem_append, BitVec.getElem_shiftLeft,
    BitVec.msb_append]
  grind

theorem branchTarget24_of_arm {s : State} {a : Word} (off : BitVec 24) (ht : s.cpsr.t = false)
    (hpc : s.pc = a + 4#32) : branchTarget24 off s = a + 8#32 + off.signExtend 32 <<< 2 := by
  rw [branchTarget24, r15_of_arm ht hpc, branchOffset24_eq_shift]

theorem branch_spec (s : State) (v : Word) :
    RegistersAfter [(none, v)] s.cpsr.t s (s.branch v) ∧ SameButRegs s (s.branch v) :=
  ⟨⟨fun _ => rfl, rfl⟩, rfl⟩

section
variable {c : CondCode} {s : State} (hc : condPass c s.cpsr = true)
include hc

theorem exec_b_of_pass (off : BitVec 24) : exec (.b c off) s = .next (s.branch (branchTarget24 off s)) :=
  whenPassed_of_pass hc _

theorem exec_bl_of_pass (off : BitVec 24) :
    exec (.bl c off) s = .next ((s.setReg lr (s.instrAddr + 4#32)).branch (branchTarget24 off s)) :=
  whenPassed_of_pass hc _

theorem exec_bx_of_pass (rm : Reg) : exec (.bx c rm) s = .next (branchExchange (s.reg rm) s) :=
  whenPassed_of_pass hc _

end

/-- Settles O50: B is a branch, BL a register write and a branch, BX a change of T and a branch. -/
theorem armBranches : Obligations.ArmBranches := by
  intro c off rm s a ht hpc hc
  refine ⟨?_, ?_, ?_⟩
  · rw [exec_b_of_pass hc, branchTarget24_of_arm off ht hpc, ← ht]
    rfl
  · rw [exec_bl_of_pass hc, branchTarget24_of_arm off ht hpc, instrAddr_of_arm ht hpc, ← ht]
    obtain ⟨hlink, hlinked⟩ := setReg_spec s lr (a + 4#32)
    obtain ⟨hbranch, -⟩ := branch_spec (s.setReg lr (a + 4#32)) (a + 8#32 + off.signExtend 32 <<< 2)
    rw [State.cpsr_setReg] at hbranch
    exact ⟨_, rfl, hlink.trans hbranch, SameButRegs.writeAt hlinked none _⟩
  · rw [exec_bx_of_pass hc, ite_reg_of_arm rm ht hpc]
    rfl

/-! ### Software interrupts -/

theorem serviceActs_eq_foldl (os : List ServiceOp) (s : State) :
    serviceActs os s = os.foldl (fun t o => serviceAct o t) s := by
  induction os generalizing s with
  | nil => rfl
  | cons o os ih => exact ih (serviceAct o s)

theorem exec_swi_of_pass {c : CondCode} {s : State} (comment : BitVec 24) (hc : condPass c s.cpsr = true) :
    exec (.swi c comment) s = softwareInterrupt comment s :=
  whenPassed_of_pass hc _

/-- The THUMB comment is extended with zeros (R442). -/
theorem exec_tSwi {b : BitVec 8} {comment : BitVec 24} (s : State) (h : comment.toNat = b.toNat) :
    exec (.tSwi b) s = softwareInterrupt comment s := by
  obtain rfl : b.setWidth 24 = comment := BitVec.eq_of_toNat_eq (by rw [h, BitVec.toNat_setWidth]; omega)
  rfl

/-- Settles O33, by the kind of service. -/
theorem softwareInterrupts : Obligations.SoftwareInterrupts := by
  intro i comment s hi called
  have hexec : exec i s = softwareInterrupt comment s := by
    rcases hi with ⟨c, rfl, hc⟩ | ⟨b, rfl, hb⟩
    · exact exec_swi_of_pass comment hc
    · exact exec_tSwi s hb
  rw [hexec, softwareInterrupt]
  refine ⟨fun h => ?_, fun h => ?_, fun h => ?_⟩
  · rw [h]
  · rw [h]
    rfl
  · rw [h, serviceActs_eq_foldl]
    rfl

/-! ### Undefined reports -/

/-- What an encoding that reports Undefined does: an ARM word behind the gate of its condition, a THUMB halfword
always. -/
def undefinedEffect (kind : UndefKind) : Code → State → Result
  | .arm w => undefinedArm kind w
  | .thumb h => undefinedThumb kind h

/-- The fourteen undefined encodings make the report of their kind and their bits. -/
theorem exec_of_undefinedForm {i : Instr} {kind : UndefKind} {k : Code} (s : State)
    (hf : undefinedForm i = some (kind, k)) : exec i s = undefinedEffect kind k s := by
  cases i with
  | undMulSpace | undTestReg | undTestRsr | undTestImm | undClass011 | undCopTransfer | undCopOp | tUndCond14
  | tUndB1 | tUndB2 | tUndB6 | tUndB8 | tUndBe | tUndE8 =>
    cases hf
    rfl
  | _ => cases hf

/-- Settles O34: the report carries the address that the program counter has advanced past, and is the only change. -/
theorem undefinedReportsAndContinues : Obligations.UndefinedReportsAndContinues := by
  intro i kind k s hf
  rw [exec_of_undefinedForm s hf]
  cases k with
  | arm w =>
    intro a ht hpc hc
    rw [← instrAddr_of_arm ht hpc]
    exact whenPassed_of_pass hc _
  | thumb h =>
    intro a ht hpc
    rw [← instrAddr_of_thumb ht hpc]
    rfl

end Sys2Proof.Machine

/-! # Proofs: the ARM words that report Undefined

The decode tree says in fields which words report Undefined (`undefinedKind_decodeArm` and the lemmas of its subtrees);
R117 says it in masks. `and_eq_iff_bits` and `field_eq_iff_bits` translate one into the other. -/

namespace Sys2Proof.Machine

/-! ### The kind of a report, through the decode tree -/

/-- The kind of report of an instruction, if it reports Undefined. -/
def undefinedKind (i : Instr) : Option UndefKind := (undefinedForm i).map Prod.fst

theorem undefinedKind_eq_some {i : Instr} {kind : UndefKind} :
    undefinedKind i = some kind ↔ ∃ k, undefinedForm i = some (kind, k) := by
  simp [undefinedKind]

/-- A test of the decode tree neither of whose branches reports. -/
theorem undefinedKind_ite_none (p : Prop) [Decidable p] {i j : Instr} (hi : undefinedKind i = none)
    (hj : undefinedKind j = none) : undefinedKind (if p then i else j) = none := by
  split
  · exact hi
  · exact hj

/-- No leaf of data processing reports. -/
theorem undefinedKind_decodeDp (w : Word) :
    undefinedKind (decodeDpImm w) = none ∧ undefinedKind (decodeDpReg w) = none ∧
      undefinedKind (decodeDpRsr w) = none := by
  unfold decodeDpImm decodeDpReg decodeDpRsr
  refine ⟨?_, ?_, ?_⟩
  all_goals
    with_reducible repeat' apply undefinedKind_ite_none
    all_goals rfl

/-- No leaf of the single transfers reports. -/
theorem undefinedKind_decodeSingle (w : Word) :
    undefinedKind (decodeSingleImm w) = none ∧ undefinedKind (decodeSingleReg w) = none := by
  unfold decodeSingleImm decodeSingleReg
  refine ⟨?_, ?_⟩
  all_goals
    with_reducible repeat' apply undefinedKind_ite_none
    all_goals rfl

/-- No leaf of the four halfword and signed transfers reports. -/
theorem undefinedKind_decodeHalfForms (w : Word) :
    undefinedKind (decodeStrh w) = none ∧ undefinedKind (decodeLdrh w) = none ∧
      undefinedKind (decodeLdrsb w) = none ∧ undefinedKind (decodeLdrsh w) = none := by
  unfold decodeStrh decodeLdrh decodeLdrsb decodeLdrsh
  refine ⟨?_, ?_, ?_, ?_⟩
  all_goals
    with_reducible repeat' apply undefinedKind_ite_none
    all_goals rfl

theorem cases_two : ∀ x : BitVec 2, x = 0b00#2 ∨ x = 0b01#2 ∨ x = 0b10#2 ∨ x = 0b11#2 := by decide

theorem cases_three : ∀ x : BitVec 3, x = 0b000#3 ∨ x = 0b001#3 ∨ x = 0b010#3 ∨ x = 0b011#3 ∨ x = 0b100#3 ∨
    x = 0b101#3 ∨ x = 0b110#3 ∨ x = 0b111#3 := by decide

/-- The gaps between the multiplies and the swaps (R303). -/
theorem undefinedKind_decodeMultiplySwap (w : Word) :
    undefinedKind (decodeMultiplySwap w) =
      if field w 23 2 = 0b00#2 ∧ bit w 22 = true ∨ field w 23 2 = 0b11#2 ∨
        field w 23 2 = 0b10#2 ∧ field w 20 2 ≠ 0b00#2 then some .decode else none := by
  obtain h | h | h | h := cases_two (field w 23 2)
  all_goals simp only [decodeMultiplySwap, h, apply_ite undefinedKind]
  all_goals simp [undefinedKind, undefinedForm]

/-- The undefined halfword forms: post-indexed with write-back, and a store with the sign bit (R269). -/
theorem undefinedKind_decodeHalf (w : Word) :
    undefinedKind (decodeHalf w) =
      if bit w 24 = false ∧ bit w 21 = true ∨ bit w 20 = false ∧ field w 5 2 ≠ 0b01#2 then some .decode
      else none := by
  obtain ⟨hstrh, hldrh, hldrsb, hldrsh⟩ := undefinedKind_decodeHalfForms w
  have hund : undefinedKind (.undMulSpace w) = some .decode := rfl
  simp only [decodeHalf, apply_ite undefinedKind, hstrh, hldrh, hldrsb, hldrsh, hund, ite_self]
  cases bit w 24 <;> cases bit w 21 <;> cases bit w 20 <;> simp

/-- The neighbourhood of BX, MRS and MSR (D11). -/
theorem undefinedKind_decodeDpSpace (w : Word) :
    undefinedKind (decodeDpSpace w) =
      if (field w 23 2 = 0b10#2 ∧ bit w 20 = false) ∧ field w 4 24 ≠ 0x12FFF1#24 ∧
        ¬ (field w 16 6 = 0b001111#6 ∧ field w 0 12 = 0#12) ∧
        ¬ (field w 20 2 = 0b10#2 ∧ field w 12 4 = 0b1111#4 ∧ field w 4 8 = 0#8) then some .decode
      else none := by
  obtain ⟨-, hreg, hrsr⟩ := undefinedKind_decodeDp w
  simp only [decodeDpSpace, apply_ite undefinedKind, hreg, hrsr, ite_self]
  simp only [undefinedKind, undefinedForm, Option.map_none, Option.map_some, ite_self, Bool.and_eq_true, decide_eq_true_eq,
    Bool.not_eq_true', and_assoc]
  grind

/-- The neighbourhood of the immediate MSR (D11). -/
theorem undefinedKind_decodeImmSpace (w : Word) :
    undefinedKind (decodeImmSpace w) =
      if (field w 23 2 = 0b10#2 ∧ bit w 20 = false) ∧ ¬ (bit w 21 = true ∧ field w 12 4 = 0b1111#4) then some .decode
      else none := by
  obtain ⟨himm, -, -⟩ := undefinedKind_decodeDp w
  simp only [decodeImmSpace, apply_ite undefinedKind, himm]
  simp only [undefinedKind, undefinedForm, Option.map_none, Option.map_some, Bool.and_eq_true, decide_eq_true_eq,
    Bool.not_eq_true']
  grind

/-- The whole ARM tree (R104), by bits 27 to 25. -/
theorem undefinedKind_decodeArm (w : Word) :
    undefinedKind (decodeArm w) =
      if field w 25 3 = 0b110#3 ∨ bit w 24 = false ∧ field w 25 3 = 0b111#3 then some .trap
      else if field w 25 3 = 0b000#3 then
        if bit w 7 = true ∧ bit w 4 = true then
          if field w 5 2 = 0b00#2 then undefinedKind (decodeMultiplySwap w) else undefinedKind (decodeHalf w)
        else undefinedKind (decodeDpSpace w)
      else if field w 25 3 = 0b001#3 then undefinedKind (decodeImmSpace w)
      else if field w 25 3 = 0b011#3 ∧ bit w 4 = true then some .decode
      else none := by
  obtain ⟨himm, hreg⟩ := undefinedKind_decodeSingle w
  obtain h | h | h | h | h | h | h | h := cases_three (field w 25 3)
  all_goals simp only [decodeArm, h, apply_ite undefinedKind, himm, hreg]
  all_goals cases bit w 24 <;> simp [undefinedKind, undefinedForm]

/-! ### Masks as fields -/

theorem field_eq_iff_bits (w : Word) (lo len : Nat) (v : BitVec len) :
    field w lo len = v ↔ ∀ i < len, w.getLsbD (lo + i) = v.getLsbD i := by
  have hbit {i : Nat} (hi : i < len) : (field w lo len).getLsbD i = w.getLsbD (lo + i) := by
    rw [field, BitVec.getLsbD_extractLsb', decide_eq_true hi, Bool.true_and]
  refine ⟨fun h i hi => ?_, fun h => BitVec.eq_of_getLsbD_eq fun i hi => ?_⟩
  · rw [← hbit hi, h]
  · rw [hbit hi, h i hi]

theorem and_eq_iff_bits (w mask pattern : Word) :
    w &&& mask = pattern ↔ ∀ i < 32, (w.getLsbD i && mask.getLsbD i) = pattern.getLsbD i := by
  simp only [← BitVec.getLsbD_and]
  exact ⟨fun h _ _ => by rw [h], BitVec.eq_of_getLsbD_eq⟩

/-- Bit 6 of a word, the sign bit of the halfword transfers, in the field that the tree tests. -/
theorem bit_six_eq (w : Word) : bit w 6 = (field w 5 2).getLsbD 1 := by
  simp [bit, field]

/-- The leaves L1 to L5, in the multiply, swap and halfword space (R117). -/
theorem mulSpace_masks (w : Word) :
    (w &&& 0x0FC000F0#32 = 0x00400090#32 ↔ bit w 4 = true ∧ field w 5 2 = 0b00#2 ∧ bit w 7 = true ∧
      bit w 22 = true ∧ field w 23 2 = 0b00#2 ∧ field w 25 3 = 0b000#3) ∧
    (w &&& 0x0F8000F0#32 = 0x01800090#32 ↔ bit w 4 = true ∧ field w 5 2 = 0b00#2 ∧ bit w 7 = true ∧
      field w 23 2 = 0b11#2 ∧ field w 25 3 = 0b000#3) ∧
    (w &&& 0x0F8000F0#32 = 0x01000090#32 ↔ bit w 4 = true ∧ field w 5 2 = 0b00#2 ∧ bit w 7 = true ∧
      field w 23 2 = 0b10#2 ∧ field w 25 3 = 0b000#3) ∧
    (w &&& 0x0F200090#32 = 0x00200090#32 ↔ bit w 4 = true ∧ bit w 7 = true ∧ bit w 21 = true ∧
      bit w 24 = false ∧ field w 25 3 = 0b000#3) ∧
    (w &&& 0x0E1000D0#32 = 0x000000D0#32 ↔ bit w 4 = true ∧ bit w 6 = true ∧ bit w 7 = true ∧
      bit w 20 = false ∧ field w 25 3 = 0b000#3) := by
  simp only [and_eq_iff_bits, field_eq_iff_bits, Nat.forall_lt_succ_right, bit]
  simp [and_assoc]

/-- The leaf L6, the test opcodes without S, and the MRS, MSR and BX that lie in it (R117). -/
theorem testSpace_masks (w : Word) :
    (w &&& 0x0F900000#32 = 0x01000000#32 ↔ bit w 20 = false ∧ field w 23 2 = 0b10#2 ∧ field w 25 3 = 0b000#3) ∧
    (w &&& 0x0FBF0FFF#32 = 0x010F0000#32 ↔ field w 0 12 = 0#12 ∧ field w 16 6 = 0b001111#6 ∧
      field w 23 2 = 0b10#2 ∧ field w 25 3 = 0b000#3) ∧
    (w &&& 0x0FB0FFF0#32 = 0x0120F000#32 ↔ field w 4 8 = 0#8 ∧ field w 12 4 = 0b1111#4 ∧ field w 20 2 = 0b10#2 ∧
      field w 23 2 = 0b10#2 ∧ field w 25 3 = 0b000#3) ∧
    (w &&& 0x0FFFFFF0#32 = 0x012FFF10#32 ↔ field w 4 24 = 0x12FFF1#24) := by
  simp only [and_eq_iff_bits, field_eq_iff_bits, Nat.forall_lt_succ_right, bit]
  simp [and_assoc]

/-- The leaves L7 and L8, the immediate test opcodes without S (R117). -/
theorem immSpace_masks (w : Word) :
    (w &&& 0x0FB00000#32 = 0x03000000#32 ↔ bit w 20 = false ∧ bit w 21 = false ∧ field w 23 2 = 0b10#2 ∧
      field w 25 3 = 0b001#3) ∧
    (w &&& 0x0FB00000#32 = 0x03200000#32 ↔ bit w 20 = false ∧ bit w 21 = true ∧ field w 23 2 = 0b10#2 ∧
      field w 25 3 = 0b001#3) := by
  simp only [and_eq_iff_bits, field_eq_iff_bits, Nat.forall_lt_succ_right, bit]
  simp [and_assoc]

/-- The architecture's undefined space, and the coprocessor operations (R303, R302). -/
theorem class_masks (w : Word) :
    (w &&& 0x0E000010#32 = 0x06000010#32 ↔ bit w 4 = true ∧ field w 25 3 = 0b011#3) ∧
    (field w 24 4 = 0b1110#4 ↔ bit w 24 = false ∧ field w 25 3 = 0b111#3) := by
  simp only [and_eq_iff_bits, field_eq_iff_bits, Nat.forall_lt_succ_right, bit]
  simp [and_assoc]

/-! ### The words of each kind -/

/-- The coprocessor classes alone report with kind trap (D3). -/
theorem undefinedKind_eq_trap_iff (w : Word) :
    undefinedKind (decodeArm w) = some .trap ↔ field w 25 3 = 0b110#3 ∨ field w 24 4 = 0b1110#4 := by
  obtain ⟨-, hcop⟩ := class_masks w
  rw [hcop, undefinedKind_decodeArm, undefinedKind_decodeMultiplySwap, undefinedKind_decodeHalf,
    undefinedKind_decodeDpSpace, undefinedKind_decodeImmSpace]
  by_cases h : field w 25 3 = 0b110#3 ∨ bit w 24 = false ∧ field w 25 3 = 0b111#3
  · rw [if_pos h]
    exact iff_of_true rfl h
  · rw [if_neg h]
    refine iff_of_false ?_ h
    split_ifs <;> simp

theorem ite_decode_eq_iff (p : Prop) [Decidable p] :
    (if p then some UndefKind.decode else none) = some .decode ↔ p := by
  simp

section
variable {w : Word}

/-- In the multiply, swap and halfword space: L1 to L5. -/
theorem mulSpace_reports_iff (hclass : field w 25 3 = 0b000#3) (h7 : bit w 7 = true) (h4 : bit w 4 = true) :
    undefinedKind (decodeArm w) = some .decode ↔
      w &&& 0x0FC000F0#32 = 0x00400090#32 ∨ w &&& 0x0F8000F0#32 = 0x01800090#32 ∨
      (w &&& 0x0F8000F0#32 = 0x01000090#32 ∧ field w 20 2 ≠ 0#2) ∨
      (w &&& 0x0F200090#32 = 0x00200090#32 ∧ field w 5 2 ≠ 0#2) ∨ w &&& 0x0E1000D0#32 = 0x000000D0#32 := by
  have htree : undefinedKind (decodeArm w) =
      if field w 5 2 = 0b00#2 then undefinedKind (decodeMultiplySwap w) else undefinedKind (decodeHalf w) := by
    simp [undefinedKind_decodeArm, hclass, h7, h4]
  rw [htree]
  obtain hsh | hsh | hsh | hsh := cases_two (field w 5 2)
  · rw [if_pos hsh, undefinedKind_decodeMultiplySwap, ite_decode_eq_iff]
    simp [mulSpace_masks w, bit_six_eq, hsh, hclass, h7, h4, and_comm]
  all_goals
    rw [if_neg (by simp [hsh]), undefinedKind_decodeHalf, ite_decode_eq_iff]
    simp [mulSpace_masks w, bit_six_eq, hsh, hclass, h7, h4, and_comm]

/-- In the rest of data processing: L6 without MRS, MSR and BX. -/
theorem testSpace_reports_iff (hclass : field w 25 3 = 0b000#3) (h74 : ¬ (bit w 7 = true ∧ bit w 4 = true)) :
    undefinedKind (decodeArm w) = some .decode ↔
      w &&& 0x0F900000#32 = 0x01000000#32 ∧ w &&& 0x0FBF0FFF#32 ≠ 0x010F0000#32 ∧
        w &&& 0x0FB0FFF0#32 ≠ 0x0120F000#32 ∧ w &&& 0x0FFFFFF0#32 ≠ 0x012FFF10#32 := by
  have htree : undefinedKind (decodeArm w) = undefinedKind (decodeDpSpace w) := by
    simp [undefinedKind_decodeArm, hclass, h74]
  rw [htree, undefinedKind_decodeDpSpace, ite_decode_eq_iff]
  simp only [testSpace_masks w, hclass, ne_eq]
  tauto

/-- Among the immediate forms: L7 and L8. -/
theorem immSpace_reports_iff (hclass : field w 25 3 = 0b001#3) :
    undefinedKind (decodeArm w) = some .decode ↔
      w &&& 0x0FB00000#32 = 0x03000000#32 ∨
      (w &&& 0x0FB00000#32 = 0x03200000#32 ∧ field w 12 4 ≠ 0b1111#4) := by
  have htree : undefinedKind (decodeArm w) = undefinedKind (decodeImmSpace w) := by
    simp [undefinedKind_decodeArm, hclass]
  rw [htree, undefinedKind_decodeImmSpace, ite_decode_eq_iff]
  simp only [immSpace_masks w, hclass]
  cases bit w 21 <;> simp [and_comm, and_left_comm]

end

theorem extractLsb'_eq_field (w : Word) (lo len : Nat) : w.extractLsb' lo len = field w lo len := rfl

theorem getLsbD_eq_bit (w : Word) (i : Nat) : w.getLsbD i = bit w i := rfl

/-- Settles O4, by bits 27 to 25: the leaves of the other classes are excluded by their masks. -/
theorem armUndefinedEncodings : Obligations.ArmUndefinedEncodings := by
  intro w
  simp only [← undefinedKind_eq_some, extractLsb'_eq_field, getLsbD_eq_bit, decode]
  refine ⟨undefinedKind_eq_trap_iff w, ?_⟩
  obtain h | h | h | h | h | h | h | h := cases_three (field w 25 3)
  · by_cases h74 : bit w 7 = true ∧ bit w 4 = true
    · obtain ⟨h7, h4⟩ := h74
      rw [mulSpace_reports_iff h h7 h4]
      simp [immSpace_masks w, class_masks w, h, h7, h4]
    · rw [testSpace_reports_iff h h74]
      have h74' : bit w 7 = false ∨ bit w 4 = false := by simpa [imp_iff_not_or] using h74
      rcases h74' with h' | h' <;> simp [mulSpace_masks w, immSpace_masks w, class_masks w, h, h']
  · rw [immSpace_reports_iff h]
    simp [mulSpace_masks w, testSpace_masks w, class_masks w, h]
  all_goals
    simp [undefinedKind_decodeArm, mulSpace_masks w, testSpace_masks w, immSpace_masks w, class_masks w, h]

end Sys2Proof.Machine

/-! # Proofs: the THUMB shifts, arithmetic, comparisons, moves and BX

The operations that write one of r0 to r7 and the flags share one effect (`setLow_withCpsr_spec`); each family is one
operation of its form (`exec_of_thumbShiftForm` and its neighbours). -/

namespace Sys2Proof.Machine

/-! ### A result in one of r0 to r7 -/

/-- A low register and the status register are written, and nothing else: a low register is never r15. -/
theorem setLow_withCpsr_spec (s : State) (p : Psr) (rd : LowReg) (r : Word) :
    let t := (s.withCpsr p).setLow rd r
    (∀ q, t.regs.get q = if q = .g rd.toFin then r else s.regs.get q) ∧ t = { s with regs := t.regs, cpsr := p } := by
  have hphys : physReg p.m (lowReg rd) = some (.g rd.toFin) := physReg_lowReg p.m rd
  have hset : (s.withCpsr p).setLow rd r = (s.withCpsr p).writeAt (some (.g rd.toFin)) r := by
    rw [State.setLow, State.setReg, State.cpsr_withCpsr, hphys]
  rw [hset]
  exact ⟨fun q => by simp [eq_comm], rfl⟩

/-- The flags N and Z, N as bit 31 of the result. -/
theorem setNZ_eq (p : Psr) (r : Word) : p.setNZ r = { p with n := r.getLsbD 31, z := decide (r = 0#32) } := by
  rw [Psr.setNZ, BitVec.msb_eq_getLsbD_last]

/-! ### Each family as one operation of its form -/

theorem exec_of_thumbShiftForm {i : Instr} {rd : LowReg} {x : Word × Bool} {s : State}
    (h : thumbShiftForm s i = some (rd, x)) : exec i s = .next (thumbShift rd x s) := by
  cases i with
  | tLslImm | tLsrImm | tAsrImm | tLslReg | tLsrReg | tAsrReg | tRorReg | tMul =>
    cases h
    rfl
  | _ => cases h

theorem exec_of_thumbLogicalForm {i : Instr} {rd : LowReg} {r : Word} {s : State}
    (h : thumbLogicalForm s i = some (rd, r)) : exec i s = .next (thumbLogical rd r s) := by
  cases i with
  | tMovImm8 | tAnd | tEor | tOrr | tBic | tMvn =>
    cases h
    rfl
  | _ => cases h

theorem exec_of_thumbArithForm {i : Instr} {rd : LowReg} {x : Flagged} {s : State}
    (h : thumbArithForm s i = some (rd, x)) : exec i s = .next (thumbArith rd x s) := by
  cases i with
  | tAddReg | tSubReg | tAddImm3 | tSubImm3 | tAddImm8 | tSubImm8 | tAdc | tSbc | tNeg =>
    cases h
    rfl
  | _ => cases h

theorem exec_of_thumbCompareForm {i : Instr} {x : Flagged} {s : State} (h : thumbCompareForm s i = some x) :
    exec i s = .next (thumbCompare x s) := by
  cases i with
  | tCmpImm8 | tCmp | tCmn | tCmpHi =>
    cases h
    rfl
  | _ => cases h

/-- The offsets are fields times 4 (R365 to R368). -/
theorem exec_of_thumbMoveForm {i : Instr} {d : Reg} {v : Word} {s : State} (h : thumbMoveForm s i = some (d, v)) :
    exec i s = .next (s.setReg d v) := by
  cases i with
  | tAddHi | tMovHi =>
    cases h
    rfl
  | tAddPc | tAddSp | tSpPlus | tSpMinus =>
    cases h
    rw [← times4_eq_shift]
    rfl
  | _ => cases h

/-- TST is the one comparison without an adder, so it writes N and Z only (R353). -/
theorem exec_tTst (rs rd : LowReg) (s : State) :
    exec (.tTst rs rd) s = .next (s.withCpsr (s.cpsr.setNZ (s.reg (lowReg rd) &&& s.reg (lowReg rs)))) := rfl

/-- BX does not depend on its ignored bits (R364, D19). -/
theorem exec_tBx (ignH h2 : Bool) (rs : LowReg) (ign : BitVec 3) (s : State) :
    exec (.tBx ignH h2 rs ign) s = .next (branchExchange (s.reg (highReg h2 rs)) s) := rfl

/-! ### The statements -/

/-- Settles O51: all eight forms share the shifted result. -/
theorem thumbShiftsAndMultiply : Obligations.ThumbShiftsAndMultiply := by
  intro i rd r carry s h
  rw [← setNZC_eq]
  obtain ⟨hregs, hstate⟩ := setLow_withCpsr_spec s (s.cpsr.setNZC r carry) rd r
  exact ⟨_, exec_of_thumbShiftForm h, hregs, hstate⟩

/-- Settles O52: all six forms share the logical result. -/
theorem thumbLogicalOperations : Obligations.ThumbLogical := by
  intro i rd r s h
  rw [← setNZ_eq]
  obtain ⟨hregs, hstate⟩ := setLow_withCpsr_spec s (s.cpsr.setNZ r) rd r
  exact ⟨_, exec_of_thumbLogicalForm h, hregs, hstate⟩

/-- Settles O53: all nine forms share the arithmetic result. -/
theorem thumbArithmetic : Obligations.ThumbArithmetic := by
  intro i rd x s h
  obtain ⟨hregs, hstate⟩ := setLow_withCpsr_spec s (s.cpsr.setNZCV x) rd x.r
  exact ⟨_, exec_of_thumbArithForm h, hregs, hstate⟩

/-- Settles O54: a comparison is a change of the status register, with all four flags or with N and Z. -/
theorem thumbComparisons : Obligations.ThumbComparisons := by
  refine ⟨fun i x s h => exec_of_thumbCompareForm h, fun rs rd s => ?_⟩
  rw [exec_tTst, setNZ_eq]
  rfl

/-- Settles O55: a register write, r15 by a branch; and BX, as a change of T and a branch. -/
theorem thumbMovesAndExchange : Obligations.ThumbMovesAndExchange := by
  refine ⟨fun i d v s h => ?_, exec_tBx⟩
  obtain ⟨hregs, hstate⟩ := setReg_spec s d v
  exact ⟨_, exec_of_thumbMoveForm h, hregs, hstate⟩

end Sys2Proof.Machine

/-! # Proofs: the THUMB loads and stores

The loads and stores of one register are one operation of their form (`exec_of_thumbTransferForm`). PUSH, POP, STMIA and
LDMIA are assembled from what the loops of the block transfers do (`storeRegs_block_spec`, `loadRegs_block_spec`,
`storeMultiple_spec`). -/

namespace Sys2Proof.Machine

/-! ### One register -/

/-- What a transfer of one register does, once its access, Rd and address are known. -/
def thumbTransferEffect (access : Access) (rd : LowReg) (a : Word) (s : State) : Result :=
  match access with
  | .load k => thumbLoad k rd a s
  | .store n => thumbStore n rd a s

/-- The seventeen transfers of one register are one operation of their form. The offsets are fields times the width
(R390, R399 to R406). -/
theorem exec_of_thumbTransferForm {i : Instr} {access : Access} {rd : LowReg} {a : Word} {s : State}
    (h : thumbTransferForm s i = some (access, rd, a)) : exec i s = thumbTransferEffect access rd a s := by
  cases i with
  | tStrReg | tStrbReg | tLdrReg | tLdrbReg | tStrhReg | tLdsbReg | tLdrhReg | tLdshReg | tStrbImm | tLdrbImm =>
    cases h
    rfl
  | tLdrPc | tStrImm | tLdrImm | tStrSp | tLdrSp =>
    cases h
    rw [← times4_eq_shift]
    rfl
  | tStrhImm | tLdrhImm =>
    cases h
    rw [← times2_eq_shift]
    rfl
  | _ => cases h

/-- A low register reads the storage it names in every mode. -/
theorem low_eq_get (s : State) (i : LowReg) : s.low i = s.regs.get (.g i.toFin) :=
  reg_eq_get (physReg_lowReg s.cpsr.m i)

/-- Settles O56: one read, then a write of a low register. -/
theorem thumbLoads : Obligations.ThumbLoads := by
  intro i k rd a s h hacc
  obtain ⟨hregs, hstate⟩ := setLow_withCpsr_spec (s.load k a) s.cpsr rd (loadValue s.mem k a)
  have hexec : exec i s = thumbLoad k rd a s := exec_of_thumbTransferForm h
  exact ⟨_, hexec.trans (whenAdmitted_of_admitted _ hacc), hregs, hstate⟩

/-- Settles O57: one store of the storage that Rd names. -/
theorem thumbStores : Obligations.ThumbStores := by
  intro i n rd a s h hacc
  have hexec : exec i s = thumbStore n rd a s := exec_of_thumbTransferForm h
  rw [hexec, ← low_eq_get]
  exact ⟨_, whenAdmitted_of_admitted _ hacc, stored_store .., rfl⟩

/-! ### Blocks of registers -/

/-- Without a write-back, the words of a block are the values of its registers at the start. -/
theorem blockStores_nil (user : Bool) (rs : List Reg) (start : Word) (s : State) :
    blockStores (if user then modeUsr else s.cpsr.m) rs start [] s =
      rs.zipIdx.map fun x => (busAddr (blockAddr start x.2) .word, storedReg user s.r15 x.1 s) := by
  refine List.map_congr_left fun x _ => ?_
  rw [storedReg_eq, ite_self]
  rfl

/-- The stores of registers of a whole block: they change memory alone. -/
theorem storeRegs_block_spec (user : Bool) (rs : List Reg) (start : Word) (s : State) (hl : rs.length ≤ 64) :
    let words := blockStores (if user then modeUsr else s.cpsr.m) rs start [] s
    let t := storeRegs user s.r15 rs start s
    StoredWords words s.mem t.mem ∧ t = { s with mem := t.mem, trace := blockWrites words ++ s.trace } := by
  have h := storeRegs_spec user s.r15 rs start 0 s (by omega)
  rw [blockAddr_zero, ← blockStores_nil] at h
  exact h

/-- A write of the stack pointer is never a branch. -/
theorem setReg_sp_spec (s : State) (v : Word) :
    RegistersAfter [(some (.s13 (bank13 s.cpsr.m)), v)] s.cpsr.t s (s.setReg sp v) ∧
      s.setReg sp v = { s with regs := (s.setReg sp v).regs } :=
  ⟨(setReg_spec s sp v).1, rfl⟩

/-! ### PUSH and POP -/

theorem length_lowRegsOf (list : BitVec 8) : (lowRegsOf list).length ≤ 16 := length_regsOf _

theorem length_pushRegs (r : Bool) (list : BitVec 8) :
    (pushRegs r list).length = (lowRegsOf list).length + r.toNat := by
  cases r <;> simp [pushRegs]

theorem exec_tPush_of_admitted {r : Bool} {list : BitVec 8} {s : State} {start : Word}
    (hstart : start = s.reg sp - wordsSize (pushRegs r list).length)
    (hacc : Aligned start .word ∨ s.params.misaligned = .rotate) :
    exec (.tPush r list) s = .next ((storeRegs false s.r15 (pushRegs r list) start s).setReg sp start) := by
  subst hstart
  exact whenAdmitted_of_admitted _ hacc

theorem exec_tPop_of_admitted {r : Bool} {list : BitVec 8} {s : State}
    (hacc : Aligned (s.reg sp) .word ∨ s.params.misaligned = .rotate) :
    let loaded :=
      (loadRegs false (lowRegsOf list) (s.reg sp) s).setReg sp (s.reg sp + wordsSize (popCount r list))
    exec (.tPop r list) s =
      .next (if r then loadPc false (s.reg sp + wordsSize (lowRegsOf list).length) loaded else loaded) :=
  whenAdmitted_of_admitted _ hacc

/-- PUSH: the words, then the stack pointer (R410). -/
theorem storeRegs_setReg_sp_spec {rs : List Reg} (start : Word) (s : State) (hl : rs.length ≤ 64) :
    let words := blockStores s.cpsr.m rs start [] s
    let t := (storeRegs false s.r15 rs start s).setReg sp start
    RegistersAfter [(some (.s13 (bank13 s.cpsr.m)), start)] s.cpsr.t s t ∧ StoredWords words s.mem t.mem ∧
      t = { s with regs := t.regs, mem := t.mem, trace := blockWrites words ++ s.trace } := by
  obtain ⟨hwords, hstored⟩ := storeRegs_block_spec false rs start s hl
  generalize storeRegs false s.r15 rs start s = u at hwords hstored
  obtain ⟨hsp, hstate⟩ := setReg_sp_spec u start
  rw [hstored] at hsp hstate ⊢
  exact ⟨hsp, hwords, hstate⟩

/-- The loads of POP, then the stack pointer (R411). -/
theorem loadRegs_setReg_sp_spec (rs : List Reg) (start v : Word) (s : State) :
    let t := (loadRegs false rs start s).setReg sp v
    RegistersAfter (blockLoads s.cpsr.m rs start s.mem ++ [(some (.s13 (bank13 s.cpsr.m)), v)]) s.cpsr.t s t ∧
      t = { s with regs := t.regs, pc := t.pc, trace := blockReads rs.length start ++ s.trace } := by
  obtain ⟨hloads, hloaded⟩ := loadRegs_block_spec false rs start s
  generalize loadRegs false rs start s = u at hloads hloaded
  obtain ⟨hsp, hstate⟩ := setReg_sp_spec u v
  have hcpsr : u.cpsr = s.cpsr := by rw [hloaded]
  rw [hcpsr] at hsp
  refine ⟨hloads.trans hsp, ?_⟩
  rw [hloaded]
  rfl

/-- The load of r15 after the loads of other registers, which it follows in memory. -/
theorem loadPc_of_loaded {ws : List RegWrite} {n : Nat} {start : Word} {s t : State}
    (hregs : RegistersAfter ws s.cpsr.t s t)
    (hstate : t = { s with regs := t.regs, pc := t.pc, trace := blockReads n start ++ s.trace }) :
    let u := loadPc false (blockAddr start n) t
    RegistersAfter (ws ++ [(none, s.mem.read32 (busAddr (blockAddr start n) .word))]) s.cpsr.t s u ∧
      u = { s with regs := u.regs, pc := u.pc, trace := blockReads (n + 1) start ++ s.trace } := by
  obtain ⟨hpc, hloaded⟩ := loadPc_spec false (blockAddr start n) t
  have hcpsr : t.cpsr = s.cpsr := by rw [hstate]
  have hmem : t.mem = s.mem := by rw [hstate]
  rw [hmem] at hpc
  refine ⟨hregs.branch (hcpsr ▸ hpc), ?_⟩
  rw [blockReads_succ, hloaded, hstate]
  rfl

/-- Settles O58: PUSH stores and then moves the stack pointer; POP loads, moves the stack pointer and, with R set,
branches. -/
theorem pushAndPop : Obligations.PushAndPop := by
  intro r list s regs n start words
  refine ⟨fun hacc => ?_, fun hacc => ?_⟩
  · have hstart : start = s.reg sp - wordsSize (pushRegs r list).length := by rw [length_pushRegs]; rfl
    have hlen : (pushRegs r list).length ≤ 64 := by
      have := length_lowRegsOf list
      have := r.toNat_le
      rw [length_pushRegs]
      omega
    exact ⟨_, exec_tPush_of_admitted hstart hacc, storeRegs_setReg_sp_spec start s hlen⟩
  · obtain ⟨hregs, hstate⟩ := loadRegs_setReg_sp_spec regs (s.reg sp) (s.reg sp + wordsSize (popCount r list)) s
    refine ⟨_, exec_tPop_of_admitted hacc, ?_⟩
    cases r with
    | false => exact ⟨(List.append_nil _).symm ▸ hregs, hstate⟩
    | true => exact loadPc_of_loaded hregs hstate

/-! ### STMIA and LDMIA -/

theorem exec_tStmia_of_admitted {rb : LowReg} {list : BitVec 8} {s : State}
    (hacc : Aligned (s.low rb) .word ∨ s.params.misaligned = .rotate) :
    exec (.tStmia rb list) s =
      .next (storeMultiple false true (lowReg rb) (s.low rb) (s.low rb + wordsSize (lowRegsOf list).length)
        (lowRegsOf list) s) :=
  whenAdmitted_of_admitted _ hacc

theorem exec_tLdmia_of_admitted {rb : LowReg} {list : BitVec 8} {s : State}
    (hacc : Aligned (s.low rb) .word ∨ s.params.misaligned = .rotate) :
    exec (.tLdmia rb list) s =
      .next (loadRegs false (lowRegsOf list) (s.low rb) (s.setLow rb (s.low rb + wordsSize (lowRegsOf list).length))) :=
  whenAdmitted_of_admitted _ hacc

/-- Writes of which none is to r15 leave the program counter alone. -/
theorem pcAfter_of_no_branch {b : Bool} {ws : List RegWrite} (old : Word) (h : ∀ w ∈ ws, w.1 ≠ none) :
    pcAfter b ws old = old := by
  induction ws with
  | nil => rfl
  | cons w ws ih =>
    obtain ⟨hw, hws⟩ := List.forall_mem_cons.1 h
    rw [pcAfter, if_neg hw]
    exact ih hws

/-- An 8-bit list names r0 to r7, and so not r15. -/
theorem not_mem_lowRegsOf (list : BitVec 8) : 15#4 ∉ lowRegsOf list := by
  simp [lowRegsOf, regsOf]

/-- Loads of r0 to r7 are no branch. -/
theorem blockLoads_lowRegsOf_ne_none {m : BitVec 5} {list : BitVec 8} {start : Word} {mem : Memory} :
    ∀ w ∈ blockLoads m (lowRegsOf list) start mem, w.1 ≠ none := by
  intro w hw hnone
  obtain ⟨⟨i, k⟩, hx, rfl⟩ := List.mem_map.1 hw
  obtain rfl : i = 15#4 := physReg_eq_none.1 hnone
  exact not_mem_lowRegsOf list (List.fst_mem_of_mem_zipIdx hx)

/-- STMIA: the words and the write-back of a low register, which is no branch (R412). -/
theorem storeMultiple_low_spec (rb : LowReg) (start final : Word) (rs : List Reg) (s : State) (hl : rs.length ≤ 64) :
    let wb : List RegWrite := [(some (.g rb.toFin), final)]
    let words := blockStores s.cpsr.m rs start wb s
    let t := storeMultiple false true (lowReg rb) start final rs s
    RegistersAfter wb s.cpsr.t s t ∧ StoredWords words s.mem t.mem ∧
      t = { s with regs := t.regs, mem := t.mem, trace := blockWrites words ++ s.trace } := by
  have hphys : s.phys (lowReg rb) = some (.g rb.toFin) := physReg_lowReg s.cpsr.m rb
  have h := storeMultiple_spec false true (lowReg rb) start final rs s hl
  rw [hphys] at h
  obtain ⟨hregs, hwords, hstate⟩ := h
  have hpc : (storeMultiple false true (lowReg rb) start final rs s).pc = s.pc := hregs.2
  rw [hpc] at hstate
  exact ⟨hregs, hwords, hstate⟩

/-- LDMIA: the write-back of a low register, then the loads, and no branch (R413). -/
theorem setLow_loadRegs_spec (rb : LowReg) (start final : Word) (list : BitVec 8) (s : State) :
    let ws := (some (.g rb.toFin), final) :: blockLoads s.cpsr.m (lowRegsOf list) start s.mem
    let t := loadRegs false (lowRegsOf list) start (s.setLow rb final)
    RegistersAfter ws s.cpsr.t s t ∧
      t = { s with regs := t.regs, trace := blockReads (lowRegsOf list).length start ++ s.trace } := by
  have hphys : s.phys (lowReg rb) = some (.g rb.toFin) := physReg_lowReg s.cpsr.m rb
  obtain ⟨hbase, hwritten⟩ : _ ∧ SameButRegs s (s.setLow rb final) := setReg_spec s (lowReg rb) final
  obtain ⟨hloads, hloaded⟩ := loadRegs_block_spec false (lowRegsOf list) start (s.setLow rb final)
  generalize loadRegs false (lowRegsOf list) start (s.setLow rb final) = u at hloads hloaded
  rw [hwritten.cpsr, hwritten.mem] at hloads
  rw [hphys] at hbase
  have hregs := hbase.trans hloads
  have hpc : u.pc = s.pc :=
    hregs.2.trans (pcAfter_of_no_branch s.pc (List.forall_mem_cons.2 ⟨nofun, blockLoads_lowRegsOf_ne_none⟩))
  refine ⟨hregs, ?_⟩
  rw [hpc, hwritten.trace] at hloaded
  exact hloaded.trans (by rw [hwritten])

/-- Settles O59: neither transfer writes r15, so the program counter stays. -/
theorem thumbMultipleTransfers : Obligations.ThumbMultipleTransfers := by
  intro rb list s regs base wb words hacc
  exact ⟨⟨_, exec_tStmia_of_admitted hacc,
      storeMultiple_low_spec rb base _ regs s ((length_lowRegsOf list).trans (by decide))⟩,
    ⟨_, exec_tLdmia_of_admitted hacc, setLow_loadRegs_spec rb base _ list s⟩⟩

end Sys2Proof.Machine

/-! # Proofs: the THUMB branches

The fourteen conditional branches are one branch over their condition code (`exec_of_thumbCondForm`); every offset is a
field with zeros below it (`signExtend_append_zero`, `times2_eq_shift`). -/

namespace Sys2Proof.Machine

/-! ### Offsets and targets -/

/-- A field with zeros below it, sign-extended, is the sign-extended field shifted past them. -/
theorem signExtend_append_zero {n k w : Nat} (v : BitVec n) :
    (v ++ 0#k).signExtend w = v.signExtend w <<< k := by
  ext i hi
  simp only [BitVec.getElem_signExtend, BitVec.getElem_append, BitVec.getElem_shiftLeft, BitVec.msb_append]
  grind

theorem branchOffset8_eq_shift (off : BitVec 8) : branchOffset8 off = off.signExtend 32 <<< 1 :=
  signExtend_append_zero off

theorem branchOffset11_eq_shift (off : BitVec 11) : branchOffset11 off = off.signExtend 32 <<< 1 :=
  signExtend_append_zero off

theorem longOffsetHigh_eq_shift (off : BitVec 11) : longOffsetHigh off = off.signExtend 32 <<< 12 :=
  signExtend_append_zero off

theorem longOffsetLow_eq_shift (off : BitVec 11) : longOffsetLow off = off.setWidth 32 <<< 1 :=
  times2_eq_shift off

theorem r15_of_thumb {s : State} {a : Word} (ht : s.cpsr.t = true) (hpc : s.pc = a + 2#32) : s.r15 = a + 4#32 := by
  simp [State.r15, State.size, ht, hpc, BitVec.add_assoc]

/-! ### The conditional branches -/

/-- The fourteen conditional branches are one branch over their condition code (R440). -/
theorem exec_of_thumbCondForm {i : Instr} {c : CondCode} {o : BitVec 8} (s : State)
    (h : thumbCondForm i = some (c, o)) : exec i s = .next (thumbBranchIf c o s) := by
  cases i with
  | tBeq | tBne | tBcs | tBcc | tBmi | tBpl | tBvs | tBvc | tBhi | tBls | tBge | tBlt | tBgt | tBle =>
    cases h
    rfl
  | _ => cases h

/-- Taken or not, a conditional branch changes the program counter alone. -/
theorem thumbBranchIf_eq_withPc (c : CondCode) (o : BitVec 8) (s : State) :
    thumbBranchIf c o s =
      { s with pc := if condPass c s.cpsr then branchMask s.cpsr.t (s.r15 + branchOffset8 o) else s.pc } := by
  unfold thumbBranchIf
  split_ifs <;> rfl

/-! ### The long branch with link -/

/-- A write of the link register is never a branch. -/
theorem setReg_lr_spec (s : State) (v : Word) :
    RegistersAfter [(some (.s14 (bank13 s.cpsr.m)), v)] s.cpsr.t s (s.setReg lr v) ∧
      s.setReg lr v = { s with regs := (s.setReg lr v).regs } :=
  ⟨(setReg_spec s lr v).1, rfl⟩

/-- A branch that leaves `link` in the link register. -/
theorem setReg_lr_branch_spec (s : State) (link target : Word) :
    let t := (s.setReg lr link).branch target
    RegistersAfter [(some (.s14 (bank13 s.cpsr.m)), link), (none, target)] s.cpsr.t s t ∧
      t = { s with regs := t.regs, pc := t.pc } := by
  obtain ⟨hlink, hlinked⟩ := setReg_spec s lr link
  obtain ⟨hbranch, -⟩ := branch_spec (s.setReg lr link) target
  rw [State.cpsr_setReg] at hbranch
  exact ⟨hlink.trans hbranch, SameButRegs.writeAt hlinked none target⟩

/-- The first half (R446). -/
theorem exec_tBlHigh (off : BitVec 11) (s : State) :
    exec (.tBlHigh off) s = .next (s.setReg lr (s.r15 + longOffsetHigh off)) := rfl

/-- The second half reads the link register before it writes it (R447). -/
theorem exec_tBlLow (off : BitVec 11) (s : State) :
    exec (.tBlLow off) s =
      .next ((s.setReg lr ((s.instrAddr + 2#32) ||| 1#32)).branch (s.reg lr + longOffsetLow off)) := rfl

/-- Settles O60: a conditional branch moves the program counter or leaves it, B is a branch, and the halves of the long
branch are a register write and a register write with a branch. -/
theorem thumbBranches : Obligations.ThumbBranches := by
  intro s a off ht hpc
  refine ⟨fun i c o h => ?_, ?_, ?_, ?_⟩
  · rw [exec_of_thumbCondForm s h, thumbBranchIf_eq_withPc, r15_of_thumb ht hpc, branchOffset8_eq_shift, ht, hpc]
  · rw [← r15_of_thumb ht hpc, ← branchOffset11_eq_shift, ← ht]
    rfl
  · rw [← r15_of_thumb ht hpc, ← longOffsetHigh_eq_shift, ← ht]
    exact ⟨_, exec_tBlHigh off s, setReg_lr_spec s _⟩
  · have hlr : s.reg lr = s.regs.get (.s14 (bank13 s.cpsr.m)) := reg_eq_get (physReg_lr s.cpsr.m)
    rw [← instrAddr_of_thumb ht hpc, ← hlr, ← longOffsetLow_eq_shift, ← ht]
    exact ⟨_, exec_tBlLow off s, setReg_lr_branch_spec s _ _⟩

end Sys2Proof.Machine

/-! # Proofs: completion, and the confinement of User mode

An instruction has no next state only for one of the two causes of `exec_eq_refused_iff`. In User mode there is no saved
status register to reload and no privilege to write the control bits, so that every instruction but a software interrupt
with a service is `Confined`. -/

namespace Sys2Proof.Machine

/-! ### The core's turn -/

/-- In the core's turn a step is a step of the core, with some turns left. -/
theorem step_of_coreTurn {s : State} (h : coreTurn s = true) :
    ∃ turns, step s = coreStep { s with schedule := turns } := by
  cases hs : s.schedule with
  | nil => exact ⟨[], by rw [step_nil hs, ← hs]⟩
  | cons turn turns =>
    cases turn with
    | core => exact ⟨turns, step_cons hs⟩
    | host a => simp [coreTurn, hs] at h

/-- A step of the core that has a next state is the next instruction, with the program counter advanced (R40). -/
theorem exec_of_coreStep_eq_next {s t : State} (h : coreStep s = .next t) :
    exec (nextInstr s) (advance s) = .next t := by
  unfold coreStep at h
  split at h
  · exact h
  · cases h

/-! ### Completion -/

/-- The policy `rotate` and a service exclude the two causes of a refusal (R77, R466). -/
theorem exec_completes (i : Instr) {s : State} (hpolicy : s.params.misaligned = .rotate)
    (hservice : s.params.swi ≠ .absent) : ∃ t, exec i s = .next t := by
  cases h : exec i s with
  | next t => exact ⟨t, rfl⟩
  | fault e => cases e
  | refused r =>
    obtain ⟨-, ⟨-, hrefuse, -⟩ | ⟨-, -, habsent⟩⟩ := (exec_eq_refused_iff i s r).1 h
    · simp [hpolicy] at hrefuse
    · exact absurd habsent hservice

theorem coreStep_completes {s : State} (hpolicy : s.params.misaligned = .rotate) (hservice : s.params.swi ≠ .absent)
    (ha : s.pcAligned = true) : ∃ t, coreStep s = .next t := by
  rw [coreStep, if_pos ha]
  exact exec_completes _ hpolicy hservice

/-- Settles O12: a turn of the host always has a next state, a turn of the core from an aligned program counter has that
of its instruction. -/
theorem everyInstructionCompletes : Obligations.EveryInstructionCompletes := by
  refine ⟨fun _ e => (nomatch e), fun i _ => exec_completes i, fun s hpolicy hservice ha => ?_⟩
  cases hs : s.schedule with
  | nil => exact step_nil hs ▸ coreStep_completes hpolicy hservice ha
  | cons turn turns =>
    rw [step_cons hs]
    cases turn with
    | core => exact coreStep_completes (s := { s with schedule := turns }) hpolicy hservice ha
    | host a => exact ⟨_, rfl⟩

/-! ### What User mode may not change -/

/-- From `s` to `t` the mode, the interrupt masks and the saved status registers stay; T and the flags may change. -/
structure Confined (s t : State) : Prop where
  mode : t.cpsr.m = s.cpsr.m
  irqMask : t.cpsr.i = s.cpsr.i
  fiqMask : t.cpsr.f = s.cpsr.f
  saved : t.spsr = s.spsr

theorem Confined.refl (s : State) : Confined s s := ⟨rfl, rfl, rfl, rfl⟩

/-- An operation that changes nothing of the status but the flags, in any mode. -/
theorem Confined.of_keepsStatus {s t : State} (h : KeepsStatus s t) : Confined s t := by
  obtain ⟨hm, hi, hf, -⟩ := h.control rfl
  exact ⟨hm, hi, hf, h.saved rfl⟩

/-- A confined operation behind the gate of a condition. -/
theorem Confined.of_whenPassed {c : CondCode} {s t u : State} (h : Confined s u)
    (ht : whenPassed c s (.next u) = .next t) : Confined s t := by
  rcases whenPassed_eq_next ht with rfl | hnext
  · exact .refl t
  · cases hnext
    exact h

/-- A branch and exchange changes no control bit but T (R298). -/
theorem confined_branchExchange (v : Word) (s : State) : Confined s (branchExchange v s) := ⟨rfl, rfl, rfl, rfl⟩

section
variable {s : State} (hm : s.cpsr.m = modeUsr)
include hm

/-- User mode has no saved status register (R28). -/
theorem spsrBank_of_userMode : spsrBank s.cpsr.m = none := by
  rw [hm]
  rfl

theorem readSpsr_of_userMode : s.readSpsr = s.cpsr := by
  rw [State.readSpsr, spsrBank_of_userMode hm]

/-- Data processing with destination r15 finds no status register to reload (R183, R29). -/
theorem statusAfter_of_userMode (sf : Bool) (rd : Reg) (p : Psr) :
    statusAfter sf rd p s = if sf then p else s.cpsr := by
  cases sf <;> simp [statusAfter, spsrBank_of_userMode hm]

theorem confined_dpLogical (sf : Bool) (rd : Reg) (r : Word) (sc : Bool) : Confined s (dpLogical sf rd r sc s) := by
  rw [(dpLogical_spec sf rd r sc s).2, statusAfter_of_userMode hm]
  cases sf <;> exact ⟨rfl, rfl, rfl, rfl⟩

theorem confined_dpArith (sf : Bool) (rd : Reg) (f : Flagged) : Confined s (dpArith sf rd f s) := by
  rw [(dpArith_spec sf rd f s).2, statusAfter_of_userMode hm]
  cases sf <;> exact ⟨rfl, rfl, rfl, rfl⟩

/-- MSR writes no more than the flags: the control bits need a privilege (R201). -/
theorem confined_psrWrite (p ff fc : Bool) (v : Word) : Confined s (psrWrite p ff fc v s) := by
  cases p
  · have hpriv : s.privileged = false := by rw [State.privileged, hm]; rfl
    rw [psrWrite, hpriv, Bool.and_false]
    exact .of_keepsStatus (StatusEffect.withCpsr (sameControl_psrFields ff v s.cpsr))
  · rw [psrWrite_saved_of_none ff fc v (spsrBank_of_userMode hm)]
    exact .refl s

/-- The reload of a load multiple with r15 brings the current status back (R291, R28). -/
theorem confined_loadMultiple (ub wb : Bool) (rn : Reg) (start final : Word) (list : BitVec 16) :
    Confined s (loadMultiple ub wb rn start final list s) := by
  rw [(loadMultiple_spec ub wb rn start final list s).2, readSpsr_of_userMode hm, ite_self]
  exact ⟨rfl, rfl, rfl, rfl⟩

end

/-- A software interrupt without a service has a next state only behind a failed condition (R466). -/
theorem exec_isSwi_of_absent {i : Instr} {s t : State} (hi : isSwi i = true) (hs : s.params.swi = .absent)
    (ht : exec i s = .next t) : t = s := by
  cases hc : condPass (condOf i) s.cpsr
  · rw [exec_of_condition_fails hc] at ht
    cases ht
    rfl
  · have hr := (exec_eq_refused_iff i s .noSwiService).2 ⟨hc, .inr ⟨rfl, hi, hs⟩⟩
    rw [hr] at ht
    cases ht

/-- The instructions that may write the control bits or a saved status register are confined in User mode, a software
interrupt without a service does nothing, and the others are confined in every mode. -/
theorem exec_confined {i : Instr} {s t : State} (hm : s.cpsr.m = modeUsr)
    (hi : isSwi i = true → s.params.swi = .absent) (ht : exec i s = .next t) : Confined s t := by
  cases i with
  | andImm | andReg | andRsr | eorImm | eorReg | eorRsr | orrImm | orrReg | orrRsr | movImm | movReg | movRsr
  | bicImm | bicReg | bicRsr | mvnImm | mvnReg | mvnRsr => exact .of_whenPassed (confined_dpLogical hm ..) ht
  | subImm | subReg | subRsr | rsbImm | rsbReg | rsbRsr | addImm | addReg | addRsr | adcImm | adcReg | adcRsr
  | sbcImm | sbcReg | sbcRsr | rscImm | rscReg | rscRsr => exact .of_whenPassed (confined_dpArith hm ..) ht
  | msrReg | msrImm => exact .of_whenPassed (confined_psrWrite hm ..) ht
  | bx => exact .of_whenPassed (confined_branchExchange ..) ht
  | tBx =>
    cases ht
    exact confined_branchExchange ..
  | ldm =>
    rcases whenPassed_eq_next ht with rfl | h
    · exact .refl t
    · cases whenAdmitted_eq_next h
      exact confined_loadMultiple hm ..
  | swi | tSwi =>
    obtain rfl := exec_isSwi_of_absent rfl (hi rfl) ht
    exact .refl t
  | _ =>
    obtain ⟨hcontrol, hsaved⟩ := onlyStatusWritersChangeControlBits _ s t rfl ht
    obtain ⟨hmode, hirq, hfiq, -⟩ := hcontrol rfl
    exact ⟨hmode, hirq, hfiq, hsaved rfl⟩

/-- Settles O19: the step executes the next instruction, and its fetch and advance change no status. -/
theorem userModeIsConfined : Obligations.UserModeIsConfined := by
  intro s t hturn hm hswi ht
  obtain ⟨turns, hstep⟩ := step_of_coreTurn hturn
  have hexec := exec_of_coreStep_eq_next (hstep ▸ ht)
  obtain ⟨hmode, hirq, hfiq, hsaved⟩ := exec_confined (s := advance { s with schedule := turns }) hm hswi hexec
  exact ⟨hmode.trans hm, hirq, hfiq, hsaved⟩

end Sys2Proof.Machine

/-! # Proofs: decoding undoes encoding

What each layout of the encoder puts into the fields that the decode trees read, and what the trees make of it. -/

namespace Sys2Proof.Laws

open Sys2Proof

/-! ### One bit, placed or read -/

theorem bit_placeBit {n : Nat} (lo : Nat) (b : Bool) (i : Nat) (h : lo < n) :
    bit (placeBit lo b : BitVec n) i = (decide (i = lo) && b) := by
  rw [placeBit, bit_place]
  rcases Nat.lt_trichotomy i lo with h' | rfl | h'
  · simp [Nat.not_le.2 h', h'.ne]
  · simp [h]
  · rw [BitVec.getLsbD_of_ge _ (i - lo) (by omega)]
    simp [h'.ne']

theorem field_placeBit_off {n len : Nat} (lo lo' : Nat) (b : Bool) (h : lo + len ≤ lo' ∨ lo' + 1 ≤ lo) :
    field (placeBit lo' b : BitVec n) lo len = 0#len := field_place_off lo lo' _ h

theorem bit_place_off {n k : Nat} (i lo : Nat) (v : BitVec k) (h : i < lo ∨ lo + k ≤ i) :
    bit (place lo v : BitVec n) i = false := by
  rw [bit_place]
  rcases h with h | h
  · simp [Nat.not_le.2 h]
  · simp [BitVec.getLsbD_of_ge v (i - lo) (by omega)]

/-! ### The layouts: what the decode trees read of an encoded word

Each lemma lists the fields of the layout, each with what the match value holds there, and then the fixed fields that
the tree tests. -/

theorem encA1_fields (m : BitVec 32) (c : CondCode) (sf : Bool) (rn rd : Reg) (rot : BitVec 4) (imm : BitVec 8) :
    let w := encA1 m c sf rn rd rot imm
    (field w 28 4 = field m 28 4 ||| c ∧ bit w 20 = (bit m 20 || sf) ∧ field w 16 4 = field m 16 4 ||| rn ∧
      field w 12 4 = field m 12 4 ||| rd ∧ field w 8 4 = field m 8 4 ||| rot ∧ field w 0 8 = field m 0 8 ||| imm) ∧
    field w 25 3 = field m 25 3 ∧ field w 23 2 = field m 23 2 ∧ field w 21 4 = field m 21 4 := by
  simp (disch := omega) [encA1, field_or, bit_or, field_place_same, field_place_off, bit_place_off, bit_placeBit,
    field_placeBit_off]

theorem encA2_fields (m : BitVec 32) (c : CondCode) (sf : Bool) (rn rd : Reg) (amt : BitVec 5) (ty : ShiftType) (rm : Reg) :
    let w := encA2 m c sf rn rd amt ty rm
    (field w 28 4 = field m 28 4 ||| c ∧ bit w 20 = (bit m 20 || sf) ∧ field w 16 4 = field m 16 4 ||| rn ∧
      field w 12 4 = field m 12 4 ||| rd ∧ field w 7 5 = field m 7 5 ||| amt ∧ field w 5 2 = field m 5 2 ||| ty.toBits ∧
      field w 0 4 = field m 0 4 ||| rm) ∧
    field w 25 3 = field m 25 3 ∧ field w 23 2 = field m 23 2 ∧ field w 21 4 = field m 21 4 ∧ bit w 4 = bit m 4 := by
  simp (disch := omega) [encA2, field_or, bit_or, field_place_same, field_place_off, bit_place_off, bit_placeBit,
    field_placeBit_off]

theorem encA3_fields (m : BitVec 32) (c : CondCode) (sf : Bool) (rn rd rs : Reg) (ty : ShiftType) (rm : Reg) :
    let w := encA3 m c sf rn rd rs ty rm
    (field w 28 4 = field m 28 4 ||| c ∧ bit w 20 = (bit m 20 || sf) ∧ field w 16 4 = field m 16 4 ||| rn ∧
      field w 12 4 = field m 12 4 ||| rd ∧ field w 8 4 = field m 8 4 ||| rs ∧ field w 5 2 = field m 5 2 ||| ty.toBits ∧
      field w 0 4 = field m 0 4 ||| rm) ∧
    field w 25 3 = field m 25 3 ∧ field w 23 2 = field m 23 2 ∧ field w 21 4 = field m 21 4 ∧ bit w 7 = bit m 7 ∧
      bit w 4 = bit m 4 := by
  simp (disch := omega) [encA3, field_or, bit_or, field_place_same, field_place_off, bit_place_off, bit_placeBit,
    field_placeBit_off]

theorem encA4_fields (m : BitVec 32) (c : CondCode) (p : Bool) (rd : Reg) :
    let w := encA4 m c p rd
    (field w 28 4 = field m 28 4 ||| c ∧ bit w 22 = (bit m 22 || p) ∧ field w 12 4 = field m 12 4 ||| rd) ∧
    field w 25 3 = field m 25 3 ∧ field w 23 2 = field m 23 2 ∧ bit w 20 = bit m 20 ∧ field w 16 6 = field m 16 6 ∧
      field w 0 12 = field m 0 12 ∧ bit w 4 = bit m 4 := by
  simp (disch := omega) [encA4, field_or, bit_or, field_place_same, field_place_off, bit_place_off, bit_placeBit,
    field_placeBit_off]

theorem encA5_fields (m : BitVec 32) (c : CondCode) (p ff : Bool) (ign : BitVec 2) (fc : Bool) (rm : Reg) :
    let w := encA5 m c p ff ign fc rm
    (field w 28 4 = field m 28 4 ||| c ∧ bit w 22 = (bit m 22 || p) ∧ bit w 19 = (bit m 19 || ff) ∧
      field w 17 2 = field m 17 2 ||| ign ∧ bit w 16 = (bit m 16 || fc) ∧ field w 0 4 = field m 0 4 ||| rm) ∧
    field w 25 3 = field m 25 3 ∧ field w 23 2 = field m 23 2 ∧ bit w 20 = bit m 20 ∧ field w 20 2 = field m 20 2 ∧
      bit w 21 = bit m 21 ∧ field w 12 4 = field m 12 4 ∧ field w 4 8 = field m 4 8 ∧ bit w 4 = bit m 4 := by
  simp (disch := omega) [encA5, field_or, bit_or, field_place_same, field_place_off, bit_place_off, bit_placeBit,
    field_placeBit_off]

theorem encA6_fields (m : BitVec 32) (c : CondCode) (p ff : Bool) (ign : BitVec 2) (fc : Bool) (rot : BitVec 4) (imm : BitVec 8) :
    let w := encA6 m c p ff ign fc rot imm
    (field w 28 4 = field m 28 4 ||| c ∧ bit w 22 = (bit m 22 || p) ∧ bit w 19 = (bit m 19 || ff) ∧
      field w 17 2 = field m 17 2 ||| ign ∧ bit w 16 = (bit m 16 || fc) ∧ field w 8 4 = field m 8 4 ||| rot ∧
      field w 0 8 = field m 0 8 ||| imm) ∧
    field w 25 3 = field m 25 3 ∧ field w 23 2 = field m 23 2 ∧ bit w 21 = bit m 21 ∧ bit w 20 = bit m 20 ∧
      field w 12 4 = field m 12 4 := by
  simp (disch := omega) [encA6, field_or, bit_or, field_place_same, field_place_off, bit_place_off, bit_placeBit,
    field_placeBit_off]

theorem encA7_fields (m : BitVec 32) (c : CondCode) (rm : Reg) :
    let w := encA7 m c rm
    (field w 28 4 = field m 28 4 ||| c ∧ field w 0 4 = field m 0 4 ||| rm) ∧
    field w 25 3 = field m 25 3 ∧ field w 23 2 = field m 23 2 ∧ bit w 20 = bit m 20 ∧ field w 4 24 = field m 4 24 ∧
      bit w 7 = bit m 7 := by
  simp (disch := omega) [encA7, field_or, bit_or, field_place_same, field_place_off, bit_place_off]

theorem encA8_fields (m : BitVec 32) (c : CondCode) (sf : Bool) (ra rb : Reg) (rs : BitVec 4) (rm : Reg) :
    let w := encA8 m c sf ra rb rs rm
    (field w 28 4 = field m 28 4 ||| c ∧ bit w 20 = (bit m 20 || sf) ∧ field w 16 4 = field m 16 4 ||| ra ∧
      field w 12 4 = field m 12 4 ||| rb ∧ field w 8 4 = field m 8 4 ||| rs ∧ field w 0 4 = field m 0 4 ||| rm) ∧
    field w 25 3 = field m 25 3 ∧ field w 23 2 = field m 23 2 ∧ bit w 22 = bit m 22 ∧ bit w 21 = bit m 21 ∧
      field w 21 2 = field m 21 2 ∧ bit w 7 = bit m 7 ∧ field w 5 2 = field m 5 2 ∧ bit w 4 = bit m 4 := by
  simp (disch := omega) [encA8, field_or, bit_or, field_place_same, field_place_off, bit_place_off, bit_placeBit,
    field_placeBit_off]

/-- The layout of the swaps, whose bit 20 is fixed. -/
theorem encA8_field_off (m : BitVec 32) (c : CondCode) (ra rb : Reg) (rs : BitVec 4) (rm : Reg) :
    field (encA8 m c false ra rb rs rm) 20 2 = field m 20 2 := by
  simp (disch := omega) [encA8, field_or, field_place_off, placeBit_false]

theorem encA11_fields (m : BitVec 32) (c : CondCode) (u w : Bool) (rn rd : Reg) (hi lo : BitVec 4) :
    let x := encA11 m c u w rn rd hi lo
    (field x 28 4 = field m 28 4 ||| c ∧ bit x 23 = (bit m 23 || u) ∧ bit x 21 = (bit m 21 || w) ∧
      field x 16 4 = field m 16 4 ||| rn ∧ field x 12 4 = field m 12 4 ||| rd ∧ field x 8 4 = field m 8 4 ||| hi ∧
      field x 0 4 = field m 0 4 ||| lo) ∧
    field x 25 3 = field m 25 3 ∧ bit x 24 = bit m 24 ∧ bit x 22 = bit m 22 ∧ bit x 20 = bit m 20 ∧
      bit x 7 = bit m 7 ∧ field x 5 2 = field m 5 2 ∧ bit x 4 = bit m 4 := by
  simp (disch := omega) [encA11, field_or, bit_or, field_place_same, field_place_off, bit_place_off, bit_placeBit,
    field_placeBit_off]

theorem encA13i_fields (m : BitVec 32) (c : CondCode) (u w : Bool) (rn rd : Reg) (off : BitVec 12) :
    let x := encA13i m c u w rn rd off
    (field x 28 4 = field m 28 4 ||| c ∧ bit x 23 = (bit m 23 || u) ∧ bit x 21 = (bit m 21 || w) ∧
      field x 16 4 = field m 16 4 ||| rn ∧ field x 12 4 = field m 12 4 ||| rd ∧ field x 0 12 = field m 0 12 ||| off) ∧
    field x 25 3 = field m 25 3 ∧ bit x 24 = bit m 24 ∧ bit x 22 = bit m 22 ∧ bit x 20 = bit m 20 := by
  simp (disch := omega) [encA13i, field_or, bit_or, field_place_same, field_place_off, bit_place_off, bit_placeBit,
    field_placeBit_off]

theorem encA13r_fields (m : BitVec 32) (c : CondCode) (u w : Bool) (rn rd : Reg) (amt : BitVec 5) (ty : ShiftType) (rm : Reg) :
    let x := encA13r m c u w rn rd amt ty rm
    (field x 28 4 = field m 28 4 ||| c ∧ bit x 23 = (bit m 23 || u) ∧ bit x 21 = (bit m 21 || w) ∧
      field x 16 4 = field m 16 4 ||| rn ∧ field x 12 4 = field m 12 4 ||| rd ∧ field x 7 5 = field m 7 5 ||| amt ∧
      field x 5 2 = field m 5 2 ||| ty.toBits ∧ field x 0 4 = field m 0 4 ||| rm) ∧
    field x 25 3 = field m 25 3 ∧ bit x 24 = bit m 24 ∧ bit x 22 = bit m 22 ∧ bit x 20 = bit m 20 ∧ bit x 4 = bit m 4 := by
  simp (disch := omega) [encA13r, field_or, bit_or, field_place_same, field_place_off, bit_place_off, bit_placeBit,
    field_placeBit_off]

theorem encA14_fields (m : BitVec 32) (c : CondCode) (p u ub w : Bool) (rn : Reg) (list : BitVec 16) :
    let x := encA14 m c p u ub w rn list
    (field x 28 4 = field m 28 4 ||| c ∧ bit x 24 = (bit m 24 || p) ∧ bit x 23 = (bit m 23 || u) ∧
      bit x 22 = (bit m 22 || ub) ∧ bit x 21 = (bit m 21 || w) ∧ field x 16 4 = field m 16 4 ||| rn ∧
      field x 0 16 = field m 0 16 ||| list) ∧
    field x 25 3 = field m 25 3 ∧ bit x 20 = bit m 20 := by
  simp (disch := omega) [encA14, field_or, bit_or, field_place_same, field_place_off, bit_place_off, bit_placeBit,
    field_placeBit_off]

theorem encA15_fields (m : BitVec 32) (c : CondCode) (v : BitVec 24) :
    let w := encA15 m c v
    (field w 28 4 = field m 28 4 ||| c ∧ field w 0 24 = field m 0 24 ||| v) ∧
    field w 25 3 = field m 25 3 ∧ bit w 24 = bit m 24 := by
  simp (disch := omega) [encA15, field_or, bit_or, field_place_same, field_place_off, bit_place_off]

theorem encT1_fields (m : BitVec 16) (v : BitVec 5) (rs rd : LowReg) :
    let h := encT1 m v rs rd
    (field h 6 5 = field m 6 5 ||| v ∧ field h 3 3 = field m 3 3 ||| rs ∧ field h 0 3 = field m 0 3 ||| rd) ∧
    field h 14 2 = field m 14 2 ∧ field h 11 3 = field m 11 3 := by
  simp (disch := omega) [encT1, field_or, field_place_same, field_place_off]

theorem encT2_fields (m : BitVec 16) (v : BitVec 3) (rs rd : LowReg) :
    let h := encT2 m v rs rd
    (field h 6 3 = field m 6 3 ||| v ∧ field h 3 3 = field m 3 3 ||| rs ∧ field h 0 3 = field m 0 3 ||| rd) ∧
    field h 14 2 = field m 14 2 ∧ field h 11 3 = field m 11 3 ∧ field h 9 3 = field m 9 3 ∧ bit h 10 = bit m 10 ∧
      bit h 9 = bit m 9 := by
  simp (disch := omega) [encT2, field_or, bit_or, field_place_same, field_place_off, bit_place_off]

theorem encT3_fields (m : BitVec 16) (rd : LowReg) (v : BitVec 8) :
    let h := encT3 m rd v
    (field h 8 3 = field m 8 3 ||| rd ∧ field h 0 8 = field m 0 8 ||| v) ∧
    field h 14 2 = field m 14 2 ∧ field h 11 3 = field m 11 3 := by
  simp (disch := omega) [encT3, field_or, field_place_same, field_place_off]

theorem encT4_fields (m : BitVec 16) (rs rd : LowReg) :
    let h := encT4 m rs rd
    (field h 3 3 = field m 3 3 ||| rs ∧ field h 0 3 = field m 0 3 ||| rd) ∧
    field h 14 2 = field m 14 2 ∧ field h 11 3 = field m 11 3 ∧ bit h 10 = bit m 10 ∧ field h 6 4 = field m 6 4 := by
  simp (disch := omega) [encT4, field_or, bit_or, field_place_same, field_place_off, bit_place_off]

theorem encT5_fields (m : BitVec 16) (h1 h2 : Bool) (rs rd : LowReg) :
    let h := encT5 m h1 h2 rs rd
    (bit h 7 = (bit m 7 || h1) ∧ bit h 6 = (bit m 6 || h2) ∧ field h 3 3 = field m 3 3 ||| rs ∧
      field h 0 3 = field m 0 3 ||| rd) ∧
    field h 14 2 = field m 14 2 ∧ field h 11 3 = field m 11 3 ∧ bit h 10 = bit m 10 ∧ field h 8 2 = field m 8 2 := by
  simp (disch := omega) [encT5, field_or, bit_or, field_place_same, field_place_off, bit_place_off, bit_placeBit,
    field_placeBit_off]

theorem encT13_fields (m : BitVec 16) (v : BitVec 7) :
    let h := encT13 m v
    field h 0 7 = field m 0 7 ||| v ∧
    field h 14 2 = field m 14 2 ∧ field h 11 3 = field m 11 3 ∧ field h 8 4 = field m 8 4 ∧ bit h 7 = bit m 7 := by
  simp (disch := omega) [encT13, field_or, bit_or, field_place_same, field_place_off, bit_place_off]

theorem encT14_fields (m : BitVec 16) (r : Bool) (v : BitVec 8) :
    let h := encT14 m r v
    (bit h 8 = (bit m 8 || r) ∧ field h 0 8 = field m 0 8 ||| v) ∧
    field h 14 2 = field m 14 2 ∧ field h 11 3 = field m 11 3 ∧
      field h 8 4 = field m 8 4 ||| (BitVec.ofBool r).setWidth 4 ∧ field h 9 3 = field m 9 3 ∧ field h 10 2 = field m 10 2 := by
  have h84 : field (placeBit 8 r : BitVec 16) 8 4 = (BitVec.ofBool r).setWidth 4 := by cases r <;> rfl
  simp (disch := omega) [encT14, field_or, bit_or, field_place_same, field_place_off, bit_place_off, bit_placeBit,
    field_placeBit_off, h84]

theorem encT18_fields (m : BitVec 16) (v : BitVec 11) :
    let h := encT18 m v
    field h 0 11 = field m 0 11 ||| v ∧ field h 14 2 = field m 14 2 ∧ field h 11 3 = field m 11 3 := by
  simp (disch := omega) [encT18, field_or, field_place_same, field_place_off]

/-! ### Decoding an encoded instruction -/

/-! ### Fields of a word that matches a row -/

/-- A field that lies among the fixed bits of a row. -/
theorem field_of_row {n : Nat} {w k m : BitVec n} (h : w &&& k = m) (lo len : Nat)
    (hk : field k lo len = BitVec.allOnes len) : field w lo len = field m lo len := by
  have hand : field (w &&& k) lo len = field w lo len &&& field k lo len := by
    ext i hi
    simp [field]
  rw [← h, hand, hk, BitVec.and_allOnes]

theorem bit_of_row {n : Nat} {w k m : BitVec n} (h : w &&& k = m) (i : Nat) (hk : bit k i = true) : bit w i = bit m i := by
  simp only [bit] at hk ⊢
  rw [← h, BitVec.getLsbD_and, hk, Bool.and_true]

/-- One bit tells a field from a value. -/
theorem field_ne_of_bit {n lo len : Nat} {w : BitVec n} {v : BitVec len} (i : Nat) (hi : i < len)
    (h : bit w (lo + i) = !v.getLsbD i) : field w lo len ≠ v := by
  rintro rfl
  simp [field, bit, hi] at h

/-- Bit 4 tells BX from MRS and MSR (R104). -/
theorem field_ne_bx {w : Word} (h : bit w 4 = false) : field w 4 24 ≠ 0x12FFF1#24 := field_ne_of_bit 0 (by decide) h

theorem decode_encode_mrs (c : CondCode) (p : Bool) (rd : Reg) : decode (encode (.mrs c p rd)) = .mrs c p rd := by
  have hbx := field_ne_bx (w := encA4 0x010F0000#32 c p rd) (by simp [encA4_fields, bit_literal])
  simp [encode, decode, decodeArm, decodeDpSpace, encA4_fields, field_literal, bit_literal, hbx]

theorem decode_encode_msrReg (c : CondCode) (p ff : Bool) (ign : BitVec 2) (fc : Bool) (rm : Reg) :
    decode (encode (.msrReg c p ff ign fc rm)) = .msrReg c p ff ign fc rm := by
  have hbx := field_ne_bx (w := encA5 0x0120F000#32 c p ff ign fc rm) (by simp [encA5_fields, bit_literal])
  have hmrs : field (encA5 0x0120F000#32 c p ff ign fc rm) 16 6 ≠ 0b001111#6 :=
    field_ne_of_bit 5 (by decide) (by simp [encA5_fields, bit_literal])
  simp [encode, decode, decodeArm, decodeDpSpace, encA5_fields, field_literal, bit_literal, hbx, hmrs]

/-! ### Decoding an undefined word -/

/-- A test of a row, as the equation of its fixed bits (R116). -/
theorem eq_of_matchesRow {n : Nat} {w mask pattern : BitVec n} (h : matchesRow w mask pattern = true) :
    w &&& mask = pattern := by simpa [matchesRow] using h

/-- The gaps between the multiplies, the swaps and the halfword transfers (L1 to L5 of R117). -/
theorem decode_undMulSpace {w : Word} (h : undefinedMulSpace w = true) : decodeArm w = .undMulSpace w := by
  have hs : w &&& 0x00300000#32 = 0#32 ↔ field w 20 2 = 0#2 := by
    simp only [Machine.and_eq_iff_bits, Machine.field_eq_iff_bits, Nat.forall_lt_succ_right]
    simp
  have hsh : w &&& 0x00000060#32 = 0#32 ↔ field w 5 2 = 0#2 := by
    simp only [Machine.and_eq_iff_bits, Machine.field_eq_iff_bits, Nat.forall_lt_succ_right]
    simp
  simp only [undefinedMulSpace, matchesRow, Bool.or_eq_true, Bool.and_eq_true, decide_eq_true_eq, Bool.not_eq_true',
    decide_eq_false_iff_not, Machine.mulSpace_masks w, hs, hsh] at h
  obtain (((h | h) | h) | h) | h := h
  · simp [decodeArm, decodeMultiplySwap, h]
  · simp [decodeArm, decodeMultiplySwap, h]
  · simp [decodeArm, decodeMultiplySwap, h]
  · simp [decodeArm, decodeHalf, h]
  · have h0 : field w 5 2 ≠ 0b00#2 := field_ne_of_bit 1 (by decide) h.2.1
    have h1 : field w 5 2 ≠ 0b01#2 := field_ne_of_bit 1 (by decide) h.2.1
    simp [decodeArm, decodeHalf, h, h0, h1]

/-- The neighbourhood of MRS and MSR (L6 of R117 with bit 4 clear). -/
theorem decode_undTestReg {w : Word} (h : undefinedTestReg w = true) : decodeArm w = .undTestReg w := by
  simp only [undefinedTestReg, matchesRow, Bool.and_eq_true, decide_eq_true_eq, Bool.not_eq_true',
    decide_eq_false_iff_not] at h
  obtain ⟨⟨hrow, hmrs⟩, hmsr⟩ := h
  obtain ⟨-, hmrs_row, hmsr_row, -⟩ := Machine.testSpace_masks w
  have hcls : field w 25 3 = 0b000#3 := field_of_row hrow 25 3 rfl
  have hop : field w 23 2 = 0b10#2 := field_of_row hrow 23 2 rfl
  have hs : bit w 20 = false := bit_of_row hrow 20 rfl
  have h4 : bit w 4 = false := bit_of_row hrow 4 rfl
  have hmrs' : ¬ (field w 16 6 = 0b001111#6 ∧ field w 0 12 = 0#12) := fun ⟨h16, h0⟩ =>
    hmrs (hmrs_row.2 ⟨h0, h16, hop, hcls⟩)
  have hmsr' : ¬ ((field w 20 2 = 0b10#2 ∧ field w 12 4 = 0b1111#4) ∧ field w 4 8 = 0#8) := fun ⟨⟨h20, h12⟩, h4'⟩ =>
    hmsr (hmsr_row.2 ⟨h4', h12, h20, hop, hcls⟩)
  simp [decodeArm, decodeDpSpace, hcls, hop, hs, h4, field_ne_bx h4, hmrs', hmsr']

/-- The neighbourhood of BX (L6 of R117 with bit 4 set), which tells it from MRS and MSR. -/
theorem decode_undTestRsr {w : Word} (h : undefinedTestRsr w = true) : decodeArm w = .undTestRsr w := by
  simp only [undefinedTestRsr, matchesRow, Bool.and_eq_true, decide_eq_true_eq, Bool.not_eq_true',
    decide_eq_false_iff_not, Machine.testSpace_masks w] at h
  obtain ⟨hrow, hbx⟩ := h
  have hcls : field w 25 3 = 0b000#3 := field_of_row hrow 25 3 rfl
  have hop : field w 23 2 = 0b10#2 := field_of_row hrow 23 2 rfl
  have hs : bit w 20 = false := bit_of_row hrow 20 rfl
  have h7 : bit w 7 = false := bit_of_row hrow 7 rfl
  have h4 : bit w 4 = true := bit_of_row hrow 4 rfl
  have hmrs : field w 0 12 ≠ 0#12 := field_ne_of_bit 4 (by decide) h4
  have hmsr : field w 4 8 ≠ 0#8 := field_ne_of_bit 0 (by decide) h4
  simp [decodeArm, decodeDpSpace, hcls, hop, hs, h7, h4, hbx, hmrs, hmsr]

/-- The neighbourhood of the immediate MSR (L7 and L8 of R117). -/
theorem decode_undTestImm {w : Word} (h : undefinedTestImm w = true) : decodeArm w = .undTestImm w := by
  have hmsr_row : w &&& 0x0FB0F000#32 = 0x0320F000#32 ↔ field w 12 4 = 0b1111#4 ∧ bit w 20 = false ∧ bit w 21 = true ∧
      field w 23 2 = 0b10#2 ∧ field w 25 3 = 0b001#3 := by
    simp only [Machine.and_eq_iff_bits, Machine.field_eq_iff_bits, Nat.forall_lt_succ_right, bit]
    simp [and_assoc]
  simp only [undefinedTestImm, matchesRow, Bool.and_eq_true, decide_eq_true_eq, Bool.not_eq_true',
    decide_eq_false_iff_not] at h
  obtain ⟨hrow, hmsr⟩ := h
  have hcls : field w 25 3 = 0b001#3 := field_of_row hrow 25 3 rfl
  have hop : field w 23 2 = 0b10#2 := field_of_row hrow 23 2 rfl
  have hs : bit w 20 = false := bit_of_row hrow 20 rfl
  have hmsr' : ¬ (bit w 21 = true ∧ field w 12 4 = 0b1111#4) := fun ⟨h21, h12⟩ =>
    hmsr (hmsr_row.2 ⟨h12, hs, h21, hop, hcls⟩)
  simp [decodeArm, decodeImmSpace, hcls, hop, hs, hmsr']

/-- The architecture's undefined space (R303). -/
theorem decode_undClass011 {w : Word} (h : w &&& 0x0E000010#32 = 0x06000010#32) : decodeArm w = .undClass011 w := by
  have hcls : field w 25 3 = 0b011#3 := field_of_row h 25 3 rfl
  have h4 : bit w 4 = true := bit_of_row h 4 rfl
  simp [decodeArm, hcls, h4]

/-- The coprocessor data transfers (R302). -/
theorem decode_undCopTransfer {w : Word} (h : w &&& 0x0E000000#32 = 0x0C000000#32) :
    decodeArm w = .undCopTransfer w := by
  have hcls : field w 25 3 = 0b110#3 := field_of_row h 25 3 rfl
  simp [decodeArm, hcls]

/-- The coprocessor operations and register transfers (R302). -/
theorem decode_undCopOp {w : Word} (h : w &&& 0x0F000000#32 = 0x0E000000#32) : decodeArm w = .undCopOp w := by
  have hcls : field w 25 3 = 0b111#3 := field_of_row h 25 3 rfl
  have h24 : bit w 24 = false := bit_of_row h 24 rfl
  simp [decodeArm, hcls, h24]

section
variable {h : Half}

/-- The group of the stack adjustments, PUSH and POP (R124). -/
theorem decodeThumb_of_misc (htop : field h 14 2 = 0b10#2) (hop : field h 11 3 = 0b110#3 ∨ field h 11 3 = 0b111#3) :
    decodeThumb h = decodeThumbMisc h := by
  obtain hop | hop := hop <;> simp [decodeThumb, decodeThumbStack, htop, hop]

/-- Above its two lowest values, bits 11 to 8 have one of their upper three bits set. -/
theorem field_eight_ne (i : Nat) (hi : 1 ≤ i ∧ i < 4) (hb : bit h (8 + i) = true) :
    field h 8 4 ≠ 0b0000#4 ∧ field h 8 4 ≠ 0b0001#4 := by
  obtain ⟨h1, h4⟩ := hi
  interval_cases i
  all_goals exact ⟨field_ne_of_bit _ (by decide) hb, field_ne_of_bit _ (by decide) hb⟩

theorem decode_tUndB1 (hr : h &&& 0xFF00#16 = 0xB100#16) : decodeThumb h = .tUndB1 h := by
  have h8 : field h 8 4 = 0b0001#4 := field_of_row hr 8 4 rfl
  rw [decodeThumb_of_misc (field_of_row hr 14 2 rfl) (.inl (field_of_row hr 11 3 rfl))]
  simp [decodeThumbMisc, h8]

/-- The two gaps around PUSH (R448). -/
theorem decode_tUndB2_tUndB6 :
    (h &&& 0xFE00#16 = 0xB200#16 → decodeThumb h = .tUndB2 h) ∧
    (h &&& 0xFE00#16 = 0xB600#16 → decodeThumb h = .tUndB6 h) := by
  refine ⟨fun hr => ?_, fun hr => ?_⟩
  · have h8 := field_eight_ne 1 (by decide) (bit_of_row hr 9 rfl)
    have h9 : field h 9 3 = 0b001#3 := field_of_row hr 9 3 rfl
    rw [decodeThumb_of_misc (field_of_row hr 14 2 rfl) (.inl (field_of_row hr 11 3 rfl))]
    simp [decodeThumbMisc, h8, h9]
  · have h8 := field_eight_ne 1 (by decide) (bit_of_row hr 9 rfl)
    have h9 : field h 9 3 = 0b011#3 := field_of_row hr 9 3 rfl
    rw [decodeThumb_of_misc (field_of_row hr 14 2 rfl) (.inl (field_of_row hr 11 3 rfl))]
    simp [decodeThumbMisc, h8, h9]

/-- The two gaps around POP (R448). -/
theorem decode_tUndB8_tUndBe :
    (h &&& 0xFC00#16 = 0xB800#16 → decodeThumb h = .tUndB8 h) ∧
    (h &&& 0xFE00#16 = 0xBE00#16 → decodeThumb h = .tUndBe h) := by
  refine ⟨fun hr => ?_, fun hr => ?_⟩
  · have h8 := field_eight_ne 3 (by decide) (bit_of_row hr 11 rfl)
    have h9 (v : BitVec 3) (hv : v.getLsbD 2 = false) : field h 9 3 ≠ v :=
      field_ne_of_bit 2 (by decide) (hv ▸ bit_of_row hr 11 rfl)
    have h10 : field h 10 2 = 0b10#2 := field_of_row hr 10 2 rfl
    rw [decodeThumb_of_misc (field_of_row hr 14 2 rfl) (.inr (field_of_row hr 11 3 rfl))]
    simp [decodeThumbMisc, h8, h9, h10]
  · have h8 := field_eight_ne 1 (by decide) (bit_of_row hr 9 rfl)
    have h9 : field h 9 3 = 0b111#3 := field_of_row hr 9 3 rfl
    have h10 : field h 10 2 = 0b11#2 := field_of_row hr 10 2 rfl
    rw [decodeThumb_of_misc (field_of_row hr 14 2 rfl) (.inr (field_of_row hr 11 3 rfl))]
    simp [decodeThumbMisc, h8, h9, h10]

/-- The conditional branch with condition 14 (R441). -/
theorem decode_tUndCond14 (hr : h &&& 0xFF00#16 = 0xDE00#16) : decodeThumb h = .tUndCond14 h := by
  have htop : field h 14 2 = 0b11#2 := field_of_row hr 14 2 rfl
  have hop : field h 11 3 = 0b011#3 := field_of_row hr 11 3 rfl
  have h8 : field h 8 4 = 0b1110#4 := field_of_row hr 8 4 rfl
  simp [decodeThumb, decodeThumbBranch, decodeThumbCond, htop, hop, h8]

/-- The unallocated group 11101 (R448). -/
theorem decode_tUndE8 (hr : h &&& 0xF800#16 = 0xE800#16) : decodeThumb h = .tUndE8 h := by
  have htop : field h 14 2 = 0b11#2 := field_of_row hr 14 2 rfl
  have hop : field h 11 3 = 0b101#3 := field_of_row hr 11 3 rfl
  simp [decodeThumb, decodeThumbBranch, htop, hop]

end

/-- Settles O2: in each layout the tree finds the fixed bits of the row, and then the fields that were placed there; an
undefined word is found by the rows it matches and those it does not. -/
theorem encodeThenDecode : Obligations.EncodeThenDecode := by
  intro i hi
  cases i with
  | andImm | eorImm | subImm | rsbImm | addImm | adcImm | sbcImm | rscImm | tstImm | teqImm | cmpImm | cmnImm | orrImm
  | movImm | bicImm | mvnImm =>
    simp [encode, decode, decodeArm, decodeImmSpace, decodeDpImm, encA1_fields, field_literal, bit_literal]
  | andReg | eorReg | subReg | rsbReg | addReg | adcReg | sbcReg | rscReg | tstReg | teqReg | cmpReg | cmnReg | orrReg
  | movReg | bicReg | mvnReg =>
    simp [encode, decode, decodeArm, decodeDpSpace, decodeDpReg, encA2_fields, field_literal, bit_literal]
  | andRsr | eorRsr | subRsr | rsbRsr | addRsr | adcRsr | sbcRsr | rscRsr | tstRsr | teqRsr | cmpRsr | cmnRsr | orrRsr
  | movRsr | bicRsr | mvnRsr =>
    simp [encode, decode, decodeArm, decodeDpSpace, decodeDpRsr, encA3_fields, field_literal, bit_literal]
  | mrs c p rd => exact decode_encode_mrs c p rd
  | msrReg c p ff ign fc rm => exact decode_encode_msrReg c p ff ign fc rm
  | msrImm => simp [encode, decode, decodeArm, decodeImmSpace, encA6_fields, field_literal, bit_literal]
  | bx => simp [encode, decode, decodeArm, decodeDpSpace, encA7_fields, field_literal, bit_literal]
  | mul | mla | umull | umlal | smull | smlal | swp | swpb =>
    simp [encode, decode, decodeArm, decodeMultiplySwap, encA8_fields, encA8_field_off, field_literal, bit_literal]
  | strhRegPre | strhRegPost | strhImmPre | strhImmPost | ldrhRegPre | ldrhRegPost | ldrhImmPre | ldrhImmPost
  | ldrsbRegPre | ldrsbRegPost | ldrsbImmPre | ldrsbImmPost | ldrshRegPre | ldrshRegPost | ldrshImmPre | ldrshImmPost =>
    simp [encode, decode, decodeArm, decodeHalf, decodeStrh, decodeLdrh, decodeLdrsb, decodeLdrsh, encA11_fields,
      field_literal, bit_literal]
  | ldrImmPre | ldrImmPost | ldrtImm | ldrbImmPre | ldrbImmPost | ldrbtImm | strImmPre | strImmPost | strtImm | strbImmPre
  | strbImmPost | strbtImm =>
    simp [encode, decode, decodeArm, decodeSingleImm, encA13i_fields, field_literal, bit_literal]
  | ldrRegPre | ldrRegPost | ldrtReg | ldrbRegPre | ldrbRegPost | ldrbtReg | strRegPre | strRegPost | strtReg | strbRegPre
  | strbRegPost | strbtReg =>
    simp [encode, decode, decodeArm, decodeSingleReg, encA13r_fields, field_literal, bit_literal]
  | ldm | stm => simp [encode, decode, decodeArm, encA14_fields, field_literal, bit_literal]
  | b | bl | swi => simp [encode, decode, decodeArm, encA15_fields, field_literal, bit_literal]
  | undMulSpace w => exact decode_undMulSpace hi
  | undTestReg w => exact decode_undTestReg hi
  | undTestRsr w => exact decode_undTestRsr hi
  | undTestImm w => exact decode_undTestImm hi
  | undClass011 w => exact decode_undClass011 (eq_of_matchesRow hi)
  | undCopTransfer w => exact decode_undCopTransfer (eq_of_matchesRow hi)
  | undCopOp w => exact decode_undCopOp (eq_of_matchesRow hi)
  | tLslImm | tLsrImm | tAsrImm | tStrImm | tLdrImm | tStrbImm | tLdrbImm | tStrhImm | tLdrhImm =>
    simp [encode, decode, decodeThumb, decodeThumbImm, decodeThumbMem, decodeThumbStack, encT1_fields, field_literal]
  | tAddReg | tSubReg | tAddImm3 | tSubImm3 | tStrReg | tStrhReg | tStrbReg | tLdsbReg | tLdrReg | tLdrhReg | tLdrbReg
  | tLdshReg =>
    simp [encode, decode, decodeThumb, decodeThumbImm, decodeThumbMem, decodeThumbRegOffset, encT2_fields, field_literal,
      bit_literal]
  | tMovImm8 | tCmpImm8 | tAddImm8 | tSubImm8 | tLdrPc | tStrSp | tLdrSp | tAddPc | tAddSp | tStmia | tLdmia =>
    simp [encode, decode, decodeThumb, decodeThumbImm, decodeThumbMem, decodeThumbStack, decodeThumbBranch, encT3_fields,
      field_literal]
  | tAnd | tEor | tLslReg | tLsrReg | tAsrReg | tAdc | tSbc | tRorReg | tTst | tNeg | tCmp | tCmn | tOrr | tMul | tBic | tMvn =>
    simp [encode, decode, decodeThumb, decodeThumbMem, decodeThumbAlu, encT4_fields, field_literal, bit_literal]
  | tAddHi | tCmpHi | tMovHi | tBx =>
    simp [encode, decode, decodeThumb, decodeThumbMem, encT5_fields, field_literal, bit_literal]
  | tSpPlus | tSpMinus =>
    simp [encode, decode, decodeThumb, decodeThumbStack, decodeThumbMisc, encT13_fields, field_literal, bit_literal]
  | tPush r | tPop r =>
    cases r <;>
      simp [encode, decode, decodeThumb, decodeThumbStack, decodeThumbMisc, encT14_fields, field_literal, bit_literal]
  | tBeq | tBne | tBcs | tBcc | tBmi | tBpl | tBvs | tBvc | tBhi | tBls | tBge | tBlt | tBgt | tBle | tSwi =>
    simp [encode, decode, decodeThumb, decodeThumbBranch, decodeThumbCond, encT14_fields, field_literal]
  | tB | tBlHigh | tBlLow => simp [encode, decode, decodeThumb, decodeThumbBranch, encT18_fields, field_literal]
  | tUndCond14 w => exact decode_tUndCond14 (eq_of_matchesRow hi)
  | tUndB1 w => exact decode_tUndB1 (eq_of_matchesRow hi)
  | tUndB2 w => exact decode_tUndB2_tUndB6.1 (eq_of_matchesRow hi)
  | tUndB6 w => exact decode_tUndB2_tUndB6.2 (eq_of_matchesRow hi)
  | tUndB8 w => exact decode_tUndB8_tUndBe.1 (eq_of_matchesRow hi)
  | tUndBe w => exact decode_tUndB8_tUndBe.2 (eq_of_matchesRow hi)
  | tUndE8 w => exact decode_tUndE8 (eq_of_matchesRow hi)

end Sys2Proof.Laws

/-! # Proofs: encoding undoes decoding

A leaf of a decode tree is reached with the fixed bits of its row known. Its operands are the other fields of the word, so
that the encoder puts the word together again. -/

namespace Sys2Proof.Laws

open Sys2Proof Sys2Proof.Machine

/-! ### Fields under a mask -/

/-- A field put back in its place is the word under the mask of the field. -/
theorem place_field {n : Nat} (w : BitVec n) (lo len : Nat) :
    place lo (field w lo len) = w &&& place lo (BitVec.allOnes len) := by
  apply BitVec.eq_of_getLsbD_eq
  intro i hi
  have hb (v : BitVec len) :
      (place lo v : BitVec n).getLsbD i = (decide (i < n) && decide (lo ≤ i) && v.getLsbD (i - lo)) := bit_place lo v i
  rw [BitVec.getLsbD_and, hb, hb]
  by_cases h : lo ≤ i
  · simp [field, hi, h, Bool.and_comm]
  · simp [h]

theorem ofBool_bit {n : Nat} (w : BitVec n) (i : Nat) : BitVec.ofBool (bit w i) = field w i 1 := by
  apply BitVec.eq_of_getLsbD_eq
  intro k hk
  obtain rfl : k = 0 := by omega
  simp [field, bit]

theorem placeBit_bit {n : Nat} (w : BitVec n) (i : Nat) : placeBit i (bit w i) = w &&& place i (BitVec.allOnes 1) := by
  rw [placeBit, ofBool_bit, place_field]

/-- A field of a field. -/
theorem field_field {n lo len lo' len' : Nat} (w : BitVec n) (h : lo' + len' ≤ len) :
    field (field w lo len) lo' len' = field w (lo + lo') len' := by
  apply BitVec.eq_of_getLsbD_eq
  intro i hi
  simp [field, hi, show lo' + i < len by omega, Nat.add_assoc]

/-! ### Rows from fields

The fixed bits of a row, one field at a time: the mask and the pattern of each are its place. -/

theorem row_field {n lo len : Nat} {w : BitVec n} {v : BitVec len} (h : field w lo len = v) :
    w &&& place lo (BitVec.allOnes len) = place lo v := by rw [← h, place_field]

theorem row_bit {n i : Nat} {w : BitVec n} {b : Bool} (h : bit w i = b) :
    w &&& place i (BitVec.allOnes 1) = placeBit i b := by rw [← h, placeBit_bit]

theorem row_or {n : Nat} {w k k' m m' : BitVec n} (h : w &&& k = m) (h' : w &&& k' = m') :
    w &&& (k ||| k') = m ||| m' := by rw [← h, ← h', BitVec.and_or_distrib_left]

/-! ### The layouts: the fields of a word that matches a row give it back

The masks of the fields and the mask of the row cover the whole word. -/

section
variable {w m : BitVec 32}

theorem encA1_of_row (h : w &&& 0x0FE00000#32 = m) :
    encA1 m (field w 28 4) (bit w 20) (field w 16 4) (field w 12 4) (field w 8 4) (field w 0 8) = w := by
  rw [← h]
  simp only [encA1, place_field, placeBit_bit, ← BitVec.and_or_distrib_left]
  exact BitVec.and_allOnes

theorem encA1_of_row_off (h : w &&& 0x0FF00000#32 = m) :
    encA1 m (field w 28 4) false (field w 16 4) (field w 12 4) (field w 8 4) (field w 0 8) = w := by
  rw [← h]
  simp only [encA1, place_field, placeBit_false, BitVec.or_zero, ← BitVec.and_or_distrib_left]
  exact BitVec.and_allOnes

theorem encA2_of_row (h : w &&& 0x0FE00010#32 = m) :
    encA2 m (field w 28 4) (bit w 20) (field w 16 4) (field w 12 4) (field w 7 5) (.ofBits (field w 5 2)) (field w 0 4) = w := by
  rw [← h]
  simp only [encA2, shiftType_toBits_ofBits, place_field, placeBit_bit, ← BitVec.and_or_distrib_left]
  exact BitVec.and_allOnes

theorem encA2_of_row_off (h : w &&& 0x0FF00010#32 = m) :
    encA2 m (field w 28 4) false (field w 16 4) (field w 12 4) (field w 7 5) (.ofBits (field w 5 2)) (field w 0 4) = w := by
  rw [← h]
  simp only [encA2, shiftType_toBits_ofBits, place_field, placeBit_false, BitVec.or_zero, ← BitVec.and_or_distrib_left]
  exact BitVec.and_allOnes

theorem encA3_of_row (h : w &&& 0x0FE00090#32 = m) :
    encA3 m (field w 28 4) (bit w 20) (field w 16 4) (field w 12 4) (field w 8 4) (.ofBits (field w 5 2)) (field w 0 4) = w := by
  rw [← h]
  simp only [encA3, shiftType_toBits_ofBits, place_field, placeBit_bit, ← BitVec.and_or_distrib_left]
  exact BitVec.and_allOnes

theorem encA3_of_row_off (h : w &&& 0x0FF00090#32 = m) :
    encA3 m (field w 28 4) false (field w 16 4) (field w 12 4) (field w 8 4) (.ofBits (field w 5 2)) (field w 0 4) = w := by
  rw [← h]
  simp only [encA3, shiftType_toBits_ofBits, place_field, placeBit_false, BitVec.or_zero, ← BitVec.and_or_distrib_left]
  exact BitVec.and_allOnes

theorem encA4_of_row (h : w &&& 0x0FBF0FFF#32 = m) : encA4 m (field w 28 4) (bit w 22) (field w 12 4) = w := by
  rw [← h]
  simp only [encA4, place_field, placeBit_bit, ← BitVec.and_or_distrib_left]
  exact BitVec.and_allOnes

theorem encA5_of_row (h : w &&& 0x0FB0FFF0#32 = m) :
    encA5 m (field w 28 4) (bit w 22) (bit w 19) (field w 17 2) (bit w 16) (field w 0 4) = w := by
  rw [← h]
  simp only [encA5, place_field, placeBit_bit, ← BitVec.and_or_distrib_left]
  exact BitVec.and_allOnes

theorem encA6_of_row (h : w &&& 0x0FB0F000#32 = m) :
    encA6 m (field w 28 4) (bit w 22) (bit w 19) (field w 17 2) (bit w 16) (field w 8 4) (field w 0 8) = w := by
  rw [← h]
  simp only [encA6, place_field, placeBit_bit, ← BitVec.and_or_distrib_left]
  exact BitVec.and_allOnes

theorem encA7_of_row (h : w &&& 0x0FFFFFF0#32 = m) : encA7 m (field w 28 4) (field w 0 4) = w := by
  rw [← h]
  simp only [encA7, place_field, ← BitVec.and_or_distrib_left]
  exact BitVec.and_allOnes

theorem encA8_of_row (h : w &&& 0x0FE000F0#32 = m) :
    encA8 m (field w 28 4) (bit w 20) (field w 16 4) (field w 12 4) (field w 8 4) (field w 0 4) = w := by
  rw [← h]
  simp only [encA8, place_field, placeBit_bit, ← BitVec.and_or_distrib_left]
  exact BitVec.and_allOnes

theorem encA8_of_row_off (h : w &&& 0x0FF000F0#32 = m) :
    encA8 m (field w 28 4) false (field w 16 4) (field w 12 4) (field w 8 4) (field w 0 4) = w := by
  rw [← h]
  simp only [encA8, place_field, placeBit_false, BitVec.or_zero, ← BitVec.and_or_distrib_left]
  exact BitVec.and_allOnes

theorem encA11_of_row (h : w &&& 0x0F5000F0#32 = m) :
    encA11 m (field w 28 4) (bit w 23) (bit w 21) (field w 16 4) (field w 12 4) (field w 8 4) (field w 0 4) = w := by
  rw [← h]
  simp only [encA11, place_field, placeBit_bit, ← BitVec.and_or_distrib_left]
  exact BitVec.and_allOnes

theorem encA11_of_row_off (h : w &&& 0x0F7000F0#32 = m) :
    encA11 m (field w 28 4) (bit w 23) false (field w 16 4) (field w 12 4) (field w 8 4) (field w 0 4) = w := by
  rw [← h]
  simp only [encA11, place_field, placeBit_bit, placeBit_false, BitVec.or_zero, ← BitVec.and_or_distrib_left]
  exact BitVec.and_allOnes

theorem encA13i_of_row (h : w &&& 0x0F500000#32 = m) :
    encA13i m (field w 28 4) (bit w 23) (bit w 21) (field w 16 4) (field w 12 4) (field w 0 12) = w := by
  rw [← h]
  simp only [encA13i, place_field, placeBit_bit, ← BitVec.and_or_distrib_left]
  exact BitVec.and_allOnes

theorem encA13i_of_row_off (h : w &&& 0x0F700000#32 = m) :
    encA13i m (field w 28 4) (bit w 23) false (field w 16 4) (field w 12 4) (field w 0 12) = w := by
  rw [← h]
  simp only [encA13i, place_field, placeBit_bit, placeBit_false, BitVec.or_zero, ← BitVec.and_or_distrib_left]
  exact BitVec.and_allOnes

theorem encA13r_of_row (h : w &&& 0x0F500010#32 = m) :
    encA13r m (field w 28 4) (bit w 23) (bit w 21) (field w 16 4) (field w 12 4) (field w 7 5) (.ofBits (field w 5 2))
      (field w 0 4) = w := by
  rw [← h]
  simp only [encA13r, shiftType_toBits_ofBits, place_field, placeBit_bit, ← BitVec.and_or_distrib_left]
  exact BitVec.and_allOnes

theorem encA13r_of_row_off (h : w &&& 0x0F700010#32 = m) :
    encA13r m (field w 28 4) (bit w 23) false (field w 16 4) (field w 12 4) (field w 7 5) (.ofBits (field w 5 2))
      (field w 0 4) = w := by
  rw [← h]
  simp only [encA13r, shiftType_toBits_ofBits, place_field, placeBit_bit, placeBit_false, BitVec.or_zero,
    ← BitVec.and_or_distrib_left]
  exact BitVec.and_allOnes

theorem encA14_of_row (h : w &&& 0x0E100000#32 = m) :
    encA14 m (field w 28 4) (bit w 24) (bit w 23) (bit w 22) (bit w 21) (field w 16 4) (field w 0 16) = w := by
  rw [← h]
  simp only [encA14, place_field, placeBit_bit, ← BitVec.and_or_distrib_left]
  exact BitVec.and_allOnes

theorem encA15_of_row (h : w &&& 0x0F000000#32 = m) : encA15 m (field w 28 4) (field w 0 24) = w := by
  rw [← h]
  simp only [encA15, place_field, ← BitVec.and_or_distrib_left]
  exact BitVec.and_allOnes

end

section
variable {h m : BitVec 16}

theorem encT1_of_row (hr : h &&& 0xF800#16 = m) : encT1 m (field h 6 5) (field h 3 3) (field h 0 3) = h := by
  rw [← hr]
  simp only [encT1, place_field, ← BitVec.and_or_distrib_left]
  exact BitVec.and_allOnes

theorem encT2_of_row (hr : h &&& 0xFE00#16 = m) : encT2 m (field h 6 3) (field h 3 3) (field h 0 3) = h := by
  rw [← hr]
  simp only [encT2, place_field, ← BitVec.and_or_distrib_left]
  exact BitVec.and_allOnes

theorem encT3_of_row (hr : h &&& 0xF800#16 = m) : encT3 m (field h 8 3) (field h 0 8) = h := by
  rw [← hr]
  simp only [encT3, place_field, ← BitVec.and_or_distrib_left]
  exact BitVec.and_allOnes

theorem encT4_of_row (hr : h &&& 0xFFC0#16 = m) : encT4 m (field h 3 3) (field h 0 3) = h := by
  rw [← hr]
  simp only [encT4, place_field, ← BitVec.and_or_distrib_left]
  exact BitVec.and_allOnes

theorem encT5_of_row (hr : h &&& 0xFF00#16 = m) :
    encT5 m (bit h 7) (bit h 6) (field h 3 3) (field h 0 3) = h := by
  rw [← hr]
  simp only [encT5, place_field, placeBit_bit, ← BitVec.and_or_distrib_left]
  exact BitVec.and_allOnes

theorem encT13_of_row (hr : h &&& 0xFF80#16 = m) : encT13 m (field h 0 7) = h := by
  rw [← hr]
  simp only [encT13, place_field, ← BitVec.and_or_distrib_left]
  exact BitVec.and_allOnes

theorem encT14_of_row (hr : h &&& 0xFE00#16 = m) : encT14 m (bit h 8) (field h 0 8) = h := by
  rw [← hr]
  simp only [encT14, place_field, placeBit_bit, ← BitVec.and_or_distrib_left]
  exact BitVec.and_allOnes

theorem encT14_of_row_off (hr : h &&& 0xFF00#16 = m) : encT14 m false (field h 0 8) = h := by
  rw [← hr]
  simp only [encT14, place_field, placeBit_false, BitVec.or_zero, ← BitVec.and_or_distrib_left]
  exact BitVec.and_allOnes

theorem encT18_of_row (hr : h &&& 0xF800#16 = m) : encT18 m (field h 0 11) = h := by
  rw [← hr]
  simp only [encT18, place_field, ← BitVec.and_or_distrib_left]
  exact BitVec.and_allOnes

end

/-! ### What is claimed of a decoded word -/

/-- A word or a halfword lies in the opcode table's row of an instruction (R116). -/
def InRow (i : Instr) : Code → Prop
  | .arm w => w &&& (tableRow i).2 = (tableRow i).1
  | .thumb h => h.setWidth 32 &&& (tableRow i).2 = (tableRow i).1

/-- What the decoder owes for a code that it reads as `i`. -/
structure RoundTrips (k : Code) (i : Instr) : Prop where
  encodes : encode i = k
  wellFormed : i.wellFormed = true
  inRow : InRow i k

/-- An ARM leaf: the word matches the row, and the fields of the leaf give it back. -/
theorem RoundTrips.arm {w e : Word} {i : Instr} (he : e = w) (hr : w &&& (tableRow i).2 = (tableRow i).1)
    (hi : encode i = .arm e) (hw : i.wellFormed = true) : RoundTrips (.arm w) i :=
  ⟨by rw [hi, he], hw, hr⟩

/-- An ARM leaf that reports Undefined carries the word itself. -/
theorem RoundTrips.undefined {w : Word} {i : Instr} (hi : encode i = .arm w) (hw : i.wellFormed = true)
    (hr : EncodedInRow.Statement i) : RoundTrips (.arm w) i := by
  refine ⟨hi, hw, ?_⟩
  have h := hr hw
  rw [hi] at h
  exact h

/-- A THUMB leaf: the row's 16 bits stand in the low half of its mask and pattern. -/
theorem RoundTrips.thumb {h e k m : Half} {i : Instr} (he : e = h) (hr : h &&& k = m) (hi : encode i = .thumb e)
    (hw : i.wellFormed = true) (ht : tableRow i = (m.setWidth 32, k.setWidth 32)) : RoundTrips (.thumb h) i := by
  refine ⟨by rw [hi, he], hw, ?_⟩
  rw [InRow, ht, ← hr, BitVec.setWidth_and]

theorem cases_four : ∀ x : BitVec 4, x = 0b0000#4 ∨ x = 0b0001#4 ∨ x = 0b0010#4 ∨ x = 0b0011#4 ∨ x = 0b0100#4 ∨
    x = 0b0101#4 ∨ x = 0b0110#4 ∨ x = 0b0111#4 ∨ x = 0b1000#4 ∨ x = 0b1001#4 ∨ x = 0b1010#4 ∨ x = 0b1011#4 ∨
    x = 0b1100#4 ∨ x = 0b1101#4 ∨ x = 0b1110#4 ∨ x = 0b1111#4 := by decide

/-! ### ARM data processing -/

section
variable {w : Word}

/-- The tests are the opcodes 10xx, which reach the data-processing decoders with the S bit only (R105). -/
theorem flags_of_test {op : BitVec 4} (hs : field w 23 2 = 0b10#2 → bit w 20 = true) (h : field w 21 4 = op)
    (hop : field op 2 2 = 0b10#2) : bit w 20 = true :=
  hs (by rw [← hop, ← h, field_field w (by decide)])

theorem roundTrips_decodeDpImm (hcls : field w 25 3 = 0b001#3) (hs : field w 23 2 = 0b10#2 → bit w 20 = true) :
    RoundTrips (.arm w) (decodeDpImm w) := by
  obtain h | h | h | h | h | h | h | h | h | h | h | h | h | h | h | h := cases_four (field w 21 4)
  all_goals
    have hr := row_or (row_field hcls) (row_field h)
    simp only [decodeDpImm, h]
  iterate 8 exact .arm (encA1_of_row hr) hr rfl rfl
  iterate 4
    have hr := row_or hr (row_bit (flags_of_test hs h rfl))
    exact .arm (encA1_of_row_off hr) hr rfl rfl
  iterate 4 exact .arm (encA1_of_row hr) hr rfl rfl

theorem roundTrips_decodeDpReg (hcls : field w 25 3 = 0b000#3) (h4 : bit w 4 = false)
    (hs : field w 23 2 = 0b10#2 → bit w 20 = true) : RoundTrips (.arm w) (decodeDpReg w) := by
  obtain h | h | h | h | h | h | h | h | h | h | h | h | h | h | h | h := cases_four (field w 21 4)
  all_goals
    have hr := row_or (row_or (row_field hcls) (row_bit h4)) (row_field h)
    simp only [decodeDpReg, h]
  iterate 8 exact .arm (encA2_of_row hr) hr rfl rfl
  iterate 4
    have hr := row_or hr (row_bit (flags_of_test hs h rfl))
    exact .arm (encA2_of_row_off hr) hr rfl rfl
  iterate 4 exact .arm (encA2_of_row hr) hr rfl rfl

theorem roundTrips_decodeDpRsr (hcls : field w 25 3 = 0b000#3) (h7 : bit w 7 = false) (h4 : bit w 4 = true)
    (hs : field w 23 2 = 0b10#2 → bit w 20 = true) : RoundTrips (.arm w) (decodeDpRsr w) := by
  obtain h | h | h | h | h | h | h | h | h | h | h | h | h | h | h | h := cases_four (field w 21 4)
  all_goals
    have hr := row_or (row_or (row_field hcls) (row_or (row_bit h7) (row_bit h4))) (row_field h)
    simp only [decodeDpRsr, h]
  iterate 8 exact .arm (encA3_of_row hr) hr rfl rfl
  iterate 4
    have hr := row_or hr (row_bit (flags_of_test hs h rfl))
    exact .arm (encA3_of_row_off hr) hr rfl rfl
  iterate 4 exact .arm (encA3_of_row hr) hr rfl rfl

end

section
variable {w : Word}

/-! ### ARM multiplies, swaps and halfword transfers -/

/-- What is left of the space with bits 7 and 4 set carries its word (L1 to L5 of R117). -/
theorem roundTrips_undMulSpace (h : undefinedMulSpace w = true) : RoundTrips (.arm w) (.undMulSpace w) :=
  .undefined rfl h (EncodedInRow.undMulSpace w)

theorem roundTrips_decodeMultiplySwap (hcls : field w 25 3 = 0b000#3) (h7 : bit w 7 = true) (h5 : field w 5 2 = 0b00#2)
    (h4 : bit w 4 = true) : RoundTrips (.arm w) (decodeMultiplySwap w) := by
  have hr := row_or (row_field hcls) (row_or (row_bit h7) (row_or (row_field h5) (row_bit h4)))
  obtain hhi | hhi | hhi | hhi := cases_two (field w 23 2)
  · cases h22 : bit w 22
    · cases h21 : bit w 21
      all_goals
        have hr := row_or hr (row_or (row_field hhi) (row_or (row_bit h22) (row_bit h21)))
        simp only [decodeMultiplySwap, hhi, h22, h21]
        exact .arm (encA8_of_row hr) hr rfl rfl
    · simp only [decodeMultiplySwap, hhi, h22]
      refine roundTrips_undMulSpace ?_
      simp [undefinedMulSpace, matchesRow, mulSpace_masks w, hcls, h7, h5, h4, hhi, h22]
  · obtain hua | hua | hua | hua := cases_two (field w 21 2)
    all_goals
      have hr := row_or hr (row_or (row_field hhi) (row_field hua))
      simp only [decodeMultiplySwap, hhi, hua]
      exact .arm (encA8_of_row hr) hr rfl rfl
  · by_cases h20 : field w 20 2 = 0b00#2
    · have hr := row_or hr (row_or (row_field hhi) (row_field h20))
      cases h22 : bit w 22
      all_goals
        have hr := row_or hr (row_bit h22)
        simp only [decodeMultiplySwap, hhi, h20, h22]
        exact .arm (encA8_of_row_off hr) hr rfl rfl
    · simp only [decodeMultiplySwap, hhi, h20]
      refine roundTrips_undMulSpace ?_
      have hs : w &&& 0x00300000#32 ≠ 0#32 := fun h => h20 (field_of_row h 20 2 rfl)
      simp [undefinedMulSpace, matchesRow, mulSpace_masks w, hcls, h7, h5, h4, hhi, hs]
  · simp only [decodeMultiplySwap, hhi]
    refine roundTrips_undMulSpace ?_
    simp [undefinedMulSpace, matchesRow, mulSpace_masks w, hcls, h7, h5, h4, hhi]

/-- The four halfword and signed transfers: the immediate form by bit 22, pre-indexing by bit 24, and no post-indexed
form with the write-back bit (R269). -/
theorem roundTrips_halfForms (hcls : field w 25 3 = 0b000#3) (h7 : bit w 7 = true) (h4 : bit w 4 = true)
    (hpost : bit w 24 = false → bit w 21 = false) :
    (bit w 20 = false → field w 5 2 = 0b01#2 → RoundTrips (.arm w) (decodeStrh w)) ∧
    (bit w 20 = true → field w 5 2 = 0b01#2 → RoundTrips (.arm w) (decodeLdrh w)) ∧
    (bit w 20 = true → field w 5 2 = 0b10#2 → RoundTrips (.arm w) (decodeLdrsb w)) ∧
    (bit w 20 = true → field w 5 2 = 0b11#2 → RoundTrips (.arm w) (decodeLdrsh w)) := by
  refine ⟨fun h20 h5 => ?_, fun h20 h5 => ?_, fun h20 h5 => ?_, fun h20 h5 => ?_⟩
  all_goals
    have hr := row_or (row_or (row_field hcls) (row_or (row_bit h7) (row_bit h4))) (row_or (row_bit h20) (row_field h5))
    cases h24 : bit w 24
    · cases h22 : bit w 22
      all_goals
        have hr := row_or hr (row_or (row_bit h24) (row_or (row_bit h22) (row_bit (hpost h24))))
        simp only [decodeStrh, decodeLdrh, decodeLdrsb, decodeLdrsh, h24, h22]
        exact .arm (encA11_of_row_off hr) hr rfl rfl
    · cases h22 : bit w 22
      all_goals
        have hr := row_or hr (row_or (row_bit h24) (row_bit h22))
        simp only [decodeStrh, decodeLdrh, decodeLdrsb, decodeLdrsh, h24, h22]
        exact .arm (encA11_of_row hr) hr rfl rfl

theorem roundTrips_decodeHalf (hcls : field w 25 3 = 0b000#3) (h7 : bit w 7 = true) (h5 : field w 5 2 ≠ 0b00#2)
    (h4 : bit w 4 = true) : RoundTrips (.arm w) (decodeHalf w) := by
  have hsh : w &&& 0x00000060#32 ≠ 0#32 := fun h => h5 (field_of_row h 5 2 rfl)
  by_cases hpost : bit w 24 = false → bit w 21 = false
  · obtain ⟨hstrh, hldrh, hldrsb, hldrsh⟩ := roundTrips_halfForms hcls h7 h4 hpost
    have hno : (!bit w 24 && bit w 21) = false := by
      cases h24 : bit w 24
      · simp [hpost h24]
      · rfl
    have hsigned (h20 : bit w 20 = false) (h6 : bit w 6 = true) : RoundTrips (.arm w) (.undMulSpace w) := by
      refine roundTrips_undMulSpace ?_
      simp [undefinedMulSpace, matchesRow, mulSpace_masks w, hcls, h7, h4, h20, h6]
    obtain h | h | h | h := cases_two (field w 5 2)
    · exact absurd h h5
    all_goals
      have h6 := bit_six_eq w
      cases h20 : bit w 20
      all_goals
        rw [h] at h6
        simp only [decodeHalf, hno, h, h20]
    · exact hstrh h20 h
    · exact hldrh h20 h
    · exact hsigned h20 h6
    · exact hldrsb h20 h
    · exact hsigned h20 h6
    · exact hldrsh h20 h
  · obtain ⟨h24, h21⟩ : bit w 24 = false ∧ bit w 21 = true := by simpa using hpost
    simp only [decodeHalf, h24, h21]
    refine roundTrips_undMulSpace ?_
    simp [undefinedMulSpace, matchesRow, mulSpace_masks w, hcls, h7, h4, h24, h21, hsh]

/-! ### The rest of data processing -/

theorem roundTrips_undTestRsr (hcls : field w 25 3 = 0b000#3) (hop : field w 23 2 = 0b10#2) (hs : bit w 20 = false)
    (h7 : bit w 7 = false) (h4 : bit w 4 = true) (hbx : field w 4 24 ≠ 0x12FFF1#24) :
    RoundTrips (.arm w) (.undTestRsr w) := by
  have hrow : w &&& 0x0F900090#32 = 0x01000010#32 :=
    row_or (row_or (row_field hcls) (row_field hop)) (row_or (row_bit hs) (row_or (row_bit h7) (row_bit h4)))
  refine .undefined rfl ?_ (EncodedInRow.undTestRsr w)
  simp [Instr.wellFormed, undefinedTestRsr, matchesRow, hrow, testSpace_masks w, hbx]

theorem roundTrips_undTestReg (hcls : field w 25 3 = 0b000#3) (hop : field w 23 2 = 0b10#2) (hs : bit w 20 = false)
    (h4 : bit w 4 = false) (hmrs : ¬ (field w 16 6 = 0b001111#6 ∧ field w 0 12 = 0#12))
    (hmsr : ¬ (field w 20 2 = 0b10#2 ∧ field w 12 4 = 0b1111#4 ∧ field w 4 8 = 0#8)) :
    RoundTrips (.arm w) (.undTestReg w) := by
  have hrow : w &&& 0x0F900010#32 = 0x01000000#32 :=
    row_or (row_or (row_field hcls) (row_field hop)) (row_or (row_bit hs) (row_bit h4))
  refine .undefined rfl ?_ (EncodedInRow.undTestReg w)
  simp only [Instr.wellFormed, undefinedTestReg, matchesRow, hrow, testSpace_masks w, hop, hcls, and_true]
  simp only [Bool.and_eq_true, Bool.not_eq_true', decide_eq_true_eq, decide_eq_false_iff_not, true_and]
  exact ⟨fun ⟨h0, h16⟩ => hmrs ⟨h16, h0⟩, fun ⟨h8, h12, h20⟩ => hmsr ⟨h20, h12, h8⟩⟩

theorem roundTrips_decodeDpSpace (hcls : field w 25 3 = 0b000#3) (h74 : ¬ (bit w 7 = true ∧ bit w 4 = true)) :
    RoundTrips (.arm w) (decodeDpSpace w) := by
  have h7 (h4 : bit w 4 = true) : bit w 7 = false := by simpa [h4] using h74
  obtain ⟨-, hmrs_row, hmsr_row, hbx_row⟩ := testSpace_masks w
  simp only [decodeDpSpace, Bool.and_eq_true, decide_eq_true_eq, Bool.not_eq_true', and_assoc]
  split_ifs with hhole hbx hmrs hmsr h4 h4
  · exact .arm (encA7_of_row (hbx_row.2 hbx)) (hbx_row.2 hbx) rfl rfl
  · have hr := hmrs_row.2 ⟨hmrs.2, hmrs.1, hhole.1, hcls⟩
    exact .arm (encA4_of_row hr) hr rfl rfl
  · obtain ⟨h20, h12, h8⟩ := hmsr
    have hr := hmsr_row.2 ⟨h8, h12, h20, hhole.1, hcls⟩
    exact .arm (encA5_of_row hr) hr rfl rfl
  · exact roundTrips_undTestRsr hcls hhole.1 hhole.2 (h7 h4) h4 hbx
  · exact roundTrips_undTestReg hcls hhole.1 hhole.2 (by simpa using h4) hmrs hmsr
  · exact roundTrips_decodeDpRsr hcls (h7 h4) h4 fun hop => by simpa [hop] using hhole
  · exact roundTrips_decodeDpReg hcls (by simpa using h4) fun hop => by simpa [hop] using hhole

theorem roundTrips_decodeImmSpace (hcls : field w 25 3 = 0b001#3) : RoundTrips (.arm w) (decodeImmSpace w) := by
  simp only [decodeImmSpace, Bool.and_eq_true, decide_eq_true_eq, Bool.not_eq_true']
  split_ifs with hhole hmsr
  · have hr := row_or (row_or (row_field hcls) (row_or (row_field hhole.1) (row_bit hhole.2)))
      (row_or (row_bit hmsr.1) (row_field hmsr.2))
    exact .arm (encA6_of_row hr) hr rfl rfl
  · have hrow : w &&& 0x0F900000#32 = 0x03000000#32 :=
      row_or (row_or (row_field hcls) (row_field hhole.1)) (row_bit hhole.2)
    have hmsr' : w &&& 0x0FB0F000#32 ≠ 0x0320F000#32 := fun h =>
      hmsr ⟨bit_of_row h 21 rfl, field_of_row h 12 4 rfl⟩
    refine .undefined rfl ?_ (EncodedInRow.undTestImm w)
    simp [Instr.wellFormed, undefinedTestImm, matchesRow, hrow, hmsr']
  · exact roundTrips_decodeDpImm hcls fun hop => by simpa [hop] using hhole

/-! ### ARM single transfers -/

theorem roundTrips_decodeSingleImm (hcls : field w 25 3 = 0b010#3) : RoundTrips (.arm w) (decodeSingleImm w) := by
  cases h20 : bit w 20 <;> cases h22 : bit w 22 <;> cases h24 : bit w 24
  all_goals have hr := row_or (row_field hcls) (row_or (row_bit h20) (row_or (row_bit h22) (row_bit h24)))
  case' false.false.false | false.true.false | true.false.false | true.true.false =>
    cases h21 : bit w 21
    all_goals
      have hr := row_or hr (row_bit h21)
      simp only [decodeSingleImm, h20, h22, h24, h21]
      exact .arm (encA13i_of_row_off hr) hr rfl rfl
  all_goals
    simp only [decodeSingleImm, h20, h22, h24]
    exact .arm (encA13i_of_row hr) hr rfl rfl

theorem roundTrips_decodeSingleReg (hcls : field w 25 3 = 0b011#3) (h4 : bit w 4 = false) :
    RoundTrips (.arm w) (decodeSingleReg w) := by
  cases h20 : bit w 20 <;> cases h22 : bit w 22 <;> cases h24 : bit w 24
  all_goals
    have hr := row_or (row_or (row_field hcls) (row_bit h4)) (row_or (row_bit h20) (row_or (row_bit h22) (row_bit h24)))
  case' false.false.false | false.true.false | true.false.false | true.true.false =>
    cases h21 : bit w 21
    all_goals
      have hr := row_or hr (row_bit h21)
      simp only [decodeSingleReg, h20, h22, h24, h21]
      exact .arm (encA13r_of_row_off hr) hr rfl rfl
  all_goals
    simp only [decodeSingleReg, h20, h22, h24]
    exact .arm (encA13r_of_row hr) hr rfl rfl

/-- The whole ARM tree (R104), by bits 27 to 25. -/
theorem roundTrips_decodeArm (w : Word) : RoundTrips (.arm w) (decodeArm w) := by
  obtain hcls | hcls | hcls | hcls | hcls | hcls | hcls | hcls := cases_three (field w 25 3)
  all_goals simp only [decodeArm, hcls]
  · by_cases h74 : bit w 7 = true ∧ bit w 4 = true
    · obtain ⟨h7, h4⟩ := h74
      by_cases h5 : field w 5 2 = 0b00#2
      · simpa [h7, h4, h5] using roundTrips_decodeMultiplySwap hcls h7 h5 h4
      · simpa [h7, h4, h5] using roundTrips_decodeHalf hcls h7 h5 h4
    · simpa [h74] using roundTrips_decodeDpSpace hcls h74
  · exact roundTrips_decodeImmSpace hcls
  · exact roundTrips_decodeSingleImm hcls
  · cases h4 : bit w 4
    · exact roundTrips_decodeSingleReg hcls h4
    · have hr := row_or (row_field hcls) (row_bit h4)
      exact .undefined rfl (decide_eq_true hr) (EncodedInRow.undClass011 w)
  · cases h20 : bit w 20
    all_goals
      have hr := row_or (row_field hcls) (row_bit h20)
      exact .arm (encA14_of_row hr) hr rfl rfl
  · cases h24 : bit w 24
    all_goals
      have hr := row_or (row_field hcls) (row_bit h24)
      exact .arm (encA15_of_row hr) hr rfl rfl
  · exact .undefined rfl (decide_eq_true (row_field hcls)) (EncodedInRow.undCopTransfer w)
  · cases h24 : bit w 24
    all_goals have hr := row_or (row_field hcls) (row_bit h24)
    · exact .undefined rfl (decide_eq_true hr) (EncodedInRow.undCopOp w)
    · exact .arm (encA15_of_row hr) hr rfl rfl

end

section
variable {h : Half}

/-! ### THUMB -/

/-- Bits 13 and 12 of a group whose bits 13 to 11 are known. -/
theorem field_twelve_two {op : BitVec 3} (hop : field h 11 3 = op) : field h 12 2 = field op 1 2 := by
  rw [← hop, field_field h (by decide)]

theorem roundTrips_decodeThumbImm (htop : field h 14 2 = 0b00#2) : RoundTrips (.thumb h) (decodeThumbImm h) := by
  obtain hop | hop | hop | hop | hop | hop | hop | hop := cases_three (field h 11 3)
  all_goals
    have hr := row_or (row_field htop) (row_field hop)
    simp only [decodeThumbImm, hop]
  iterate 3 exact .thumb (encT1_of_row hr) hr rfl rfl rfl
  · cases h10 : bit h 10 <;> cases h9 : bit h 9
    all_goals
      have hr := row_or hr (row_or (row_bit h10) (row_bit h9))
      exact .thumb (encT2_of_row hr) hr rfl rfl rfl
  all_goals exact .thumb (encT3_of_row hr) hr rfl rfl rfl

theorem roundTrips_decodeThumbAlu (htop : field h 14 2 = 0b01#2) (hop : field h 11 3 = 0b000#3) (h10 : bit h 10 = false) :
    RoundTrips (.thumb h) (decodeThumbAlu h) := by
  obtain h6 | h6 | h6 | h6 | h6 | h6 | h6 | h6 | h6 | h6 | h6 | h6 | h6 | h6 | h6 | h6 := cases_four (field h 6 4)
  all_goals
    have hr := row_or (row_or (row_field htop) (row_field hop)) (row_or (row_bit h10) (row_field h6))
    simp only [decodeThumbAlu, h6]
    exact .thumb (encT4_of_row hr) hr rfl rfl rfl

theorem roundTrips_decodeThumbRegOffset (htop : field h 14 2 = 0b01#2) (h12 : field h 12 2 = 0b01#2) :
    RoundTrips (.thumb h) (decodeThumbRegOffset h) := by
  obtain h9 | h9 | h9 | h9 | h9 | h9 | h9 | h9 := cases_three (field h 9 3)
  all_goals
    have hr := row_or (row_or (row_field htop) (row_field h12)) (row_field h9)
    simp only [decodeThumbRegOffset, h9]
    exact .thumb (encT2_of_row hr) hr rfl rfl rfl

theorem roundTrips_decodeThumbMem (htop : field h 14 2 = 0b01#2) : RoundTrips (.thumb h) (decodeThumbMem h) := by
  obtain hop | hop | hop | hop | hop | hop | hop | hop := cases_three (field h 11 3)
  all_goals
    have hr := row_or (row_field htop) (row_field hop)
    simp only [decodeThumbMem, hop]
  · cases h10 : bit h 10
    · exact roundTrips_decodeThumbAlu htop hop h10
    · obtain h8 | h8 | h8 | h8 := cases_two (field h 8 2)
      all_goals
        have hr := row_or hr (row_or (row_bit h10) (row_field h8))
        simp only [h8]
        exact .thumb (encT5_of_row hr) hr rfl rfl rfl
  · exact .thumb (encT3_of_row hr) hr rfl rfl rfl
  · exact roundTrips_decodeThumbRegOffset htop (field_twelve_two hop)
  · exact roundTrips_decodeThumbRegOffset htop (field_twelve_two hop)
  all_goals exact .thumb (encT1_of_row hr) hr rfl rfl rfl

/-- Bits 11 to 8 choose among the stack adjustments, PUSH, POP and the unallocated halfwords (R124). -/
theorem roundTrips_decodeThumbMisc (htop : field h 14 2 = 0b10#2) (h12 : field h 12 2 = 0b11#2) :
    RoundTrips (.thumb h) (decodeThumbMisc h) := by
  have hgroup := row_or (row_field htop) (row_field h12)
  have h9 : field (field h 8 4) 1 3 = field h 9 3 := field_field h (by decide)
  have h10 : field (field h 8 4) 2 2 = field h 10 2 := field_field h (by decide)
  obtain h8 | h8 | h8 | h8 | h8 | h8 | h8 | h8 | h8 | h8 | h8 | h8 | h8 | h8 | h8 | h8 := cases_four (field h 8 4)
  all_goals
    rw [h8] at h9 h10
    have hr8 := row_or hgroup (row_field h8)
    have hr9 := row_or hgroup (row_field h9.symm)
    have hr10 := row_or hgroup (row_field h10.symm)
    simp only [decodeThumbMisc, h8, ← h9, ← h10]
  · cases h7 : bit h 7
    all_goals
      have hr := row_or hr8 (row_bit h7)
      exact .thumb (encT13_of_row hr) hr rfl rfl rfl
  · exact .thumb rfl hr8 rfl (decide_eq_true hr8) rfl
  iterate 2 exact .thumb rfl hr9 rfl (decide_eq_true hr9) rfl
  iterate 2 exact .thumb (encT14_of_row hr9) hr9 rfl rfl rfl
  iterate 2 exact .thumb rfl hr9 rfl (decide_eq_true hr9) rfl
  iterate 4 exact .thumb rfl hr10 rfl (decide_eq_true hr10) rfl
  iterate 2 exact .thumb (encT14_of_row hr9) hr9 rfl rfl rfl
  iterate 2 exact .thumb rfl hr9 rfl (decide_eq_true hr9) rfl

theorem roundTrips_decodeThumbStack (htop : field h 14 2 = 0b10#2) : RoundTrips (.thumb h) (decodeThumbStack h) := by
  obtain hop | hop | hop | hop | hop | hop | hop | hop := cases_three (field h 11 3)
  all_goals
    have hr := row_or (row_field htop) (row_field hop)
    simp only [decodeThumbStack, hop]
  iterate 2 exact .thumb (encT1_of_row hr) hr rfl rfl rfl
  iterate 4 exact .thumb (encT3_of_row hr) hr rfl rfl rfl
  iterate 2 exact roundTrips_decodeThumbMisc htop (field_twelve_two hop)

theorem roundTrips_decodeThumbCond (htop : field h 14 2 = 0b11#2) (h12 : field h 12 2 = 0b01#2) :
    RoundTrips (.thumb h) (decodeThumbCond h) := by
  obtain h8 | h8 | h8 | h8 | h8 | h8 | h8 | h8 | h8 | h8 | h8 | h8 | h8 | h8 | h8 | h8 := cases_four (field h 8 4)
  all_goals
    have hr := row_or (row_or (row_field htop) (row_field h12)) (row_field h8)
    simp only [decodeThumbCond, h8]
  iterate 14 exact .thumb (encT14_of_row_off hr) hr rfl rfl rfl
  · exact .thumb rfl hr rfl (decide_eq_true hr) rfl
  · exact .thumb (encT14_of_row_off hr) hr rfl rfl rfl

theorem roundTrips_decodeThumbBranch (htop : field h 14 2 = 0b11#2) : RoundTrips (.thumb h) (decodeThumbBranch h) := by
  obtain hop | hop | hop | hop | hop | hop | hop | hop := cases_three (field h 11 3)
  all_goals
    have hr := row_or (row_field htop) (row_field hop)
    simp only [decodeThumbBranch, hop]
  iterate 2 exact .thumb (encT3_of_row hr) hr rfl rfl rfl
  iterate 2 exact roundTrips_decodeThumbCond htop (field_twelve_two hop)
  · exact .thumb (encT18_of_row hr) hr rfl rfl rfl
  · exact .thumb rfl hr rfl (decide_eq_true hr) rfl
  all_goals exact .thumb (encT18_of_row hr) hr rfl rfl rfl

/-- The whole THUMB tree (R120), by bits 15 and 14. -/
theorem roundTrips_decodeThumb (h : Half) : RoundTrips (.thumb h) (decodeThumb h) := by
  obtain htop | htop | htop | htop := cases_two (field h 14 2)
  all_goals simp only [decodeThumb, htop]
  · exact roundTrips_decodeThumbImm htop
  · exact roundTrips_decodeThumbMem htop
  · exact roundTrips_decodeThumbStack htop
  · exact roundTrips_decodeThumbBranch htop

end

/-- Settles O3: each leaf of the two trees knows the fixed bits of its row, and its fields are the rest of the word. -/
theorem decodeThenEncode : Obligations.DecodeThenEncode := by
  refine ⟨fun k => ?_, fun w => (roundTrips_decodeArm w).inRow, fun h => (roundTrips_decodeThumb h).inRow⟩
  have hk : RoundTrips k (decode k) := by
    cases k with
    | arm w => exact roundTrips_decodeArm w
    | thumb h => exact roundTrips_decodeThumb h
  exact ⟨hk.encodes, hk.wellFormed⟩

/-! ### The THUMB halfwords that report Undefined -/

theorem place_and_place {n len : Nat} (lo : Nat) (u v : BitVec len) :
    (place lo u : BitVec n) &&& place lo v = place lo (u &&& v) := by
  simp [place, BitVec.shiftLeft_and_distrib, BitVec.setWidth_and]

/-- A row whose fixed bits lie in the high byte. -/
theorem row_iff_high_byte (h : Half) (k m : BitVec 8) :
    h &&& place 8 k = place 8 m ↔ field h 8 8 &&& k = m := by
  have hk : h &&& place 8 k = place 8 (field h 8 8 &&& k) := by
    rw [← place_and_place, place_field, BitVec.and_assoc, place_and_place, BitVec.allOnes_and]
  rw [hk]
  refine ⟨fun he => ?_, fun he => by rw [he]⟩
  rw [← field_place_same (n := 16) 8 (field h 8 8 &&& k) (by decide), he, field_place_same 8 m (by decide)]

/-- The unallocated halfwords are those of the six undefined rows without a format (R448). -/
def InUnallocatedRow (h : Half) : Prop :=
  h &&& 0xFF00#16 = 0xB100#16 ∨ h &&& 0xFE00#16 = 0xB200#16 ∨ h &&& 0xFE00#16 = 0xB600#16 ∨
    h &&& 0xFC00#16 = 0xB800#16 ∨ h &&& 0xFE00#16 = 0xBE00#16 ∨ h &&& 0xF800#16 = 0xE800#16

theorem inUnallocatedRow_iff (h : Half) : InUnallocatedRow h ↔
    (0b10110001#8 ≤ field h 8 8 ∧ field h 8 8 ≤ 0b10110011#8) ∨
    (0b10110110#8 ≤ field h 8 8 ∧ field h 8 8 ≤ 0b10111011#8) ∨
    field h 8 8 = 0b10111110#8 ∨ field h 8 8 = 0b10111111#8 ∨ field h 11 5 = 0b11101#5 := by
  have hbyte : ∀ x : BitVec 8,
      (x &&& 0xFF#8 = 0xB1#8 ∨ x &&& 0xFE#8 = 0xB2#8 ∨ x &&& 0xFE#8 = 0xB6#8 ∨ x &&& 0xFC#8 = 0xB8#8 ∨
        x &&& 0xFE#8 = 0xBE#8 ∨ x &&& 0xF8#8 = 0xE8#8) ↔
      (0b10110001#8 ≤ x ∧ x ≤ 0b10110011#8) ∨ (0b10110110#8 ≤ x ∧ x ≤ 0b10111011#8) ∨ x = 0b10111110#8 ∨
        x = 0b10111111#8 ∨ field x 3 5 = 0b11101#5 := by decide
  rw [← field_field (lo := 8) (len := 8) (lo' := 3) h (by decide), ← hbyte]
  exact or_congr (row_iff_high_byte h 0xFF 0xB1) (or_congr (row_iff_high_byte h 0xFE 0xB2)
    (or_congr (row_iff_high_byte h 0xFE 0xB6) (or_congr (row_iff_high_byte h 0xFC 0xB8)
      (or_congr (row_iff_high_byte h 0xFE 0xBE) (row_iff_high_byte h 0xF8 0xE8)))))

/-- What a THUMB code that is read as an undefined instruction must be. -/
theorem row_of_undefinedForm {h : Half} {i : Instr} {kind : UndefKind} {k : Code} (hi : RoundTrips (.thumb h) i)
    (hf : undefinedForm i = some (kind, k)) :
    (kind = .trap ∧ h &&& 0xFF00#16 = 0xDE00#16) ∨ (kind = .decode ∧ InUnallocatedRow h) := by
  obtain ⟨henc, hwf, -⟩ := hi
  unfold undefinedForm at hf
  split at hf
  all_goals cases hf
  all_goals cases henc
  all_goals
    have hr := eq_of_matchesRow hwf
    simp [InUnallocatedRow, hr]

theorem undefinedForm_of_row {h : Half} (hr : InUnallocatedRow h) :
    undefinedForm (decodeThumb h) = some (.decode, .thumb h) := by
  obtain hr | hr | hr | hr | hr | hr := hr
  · rw [decode_tUndB1 hr, undefinedForm]
  · rw [decode_tUndB2_tUndB6.1 hr, undefinedForm]
  · rw [decode_tUndB2_tUndB6.2 hr, undefinedForm]
  · rw [decode_tUndB8_tUndBe.1 hr, undefinedForm]
  · rw [decode_tUndB8_tUndBe.2 hr, undefinedForm]
  · rw [decode_tUndE8 hr, undefinedForm]

/-- Settles O5: an undefined halfword matches the row of its constructor, by the round trip, and a halfword in such a row
is read so. -/
theorem thumbUndefinedEncodings : Obligations.ThumbUndefinedEncodings := by
  intro h
  have hrow {kind : UndefKind} {k : Code} := row_of_undefinedForm (kind := kind) (k := k) (roundTrips_decodeThumb h)
  have htrap : h &&& 0xFF00#16 = 0xDE00#16 ↔ field h 8 8 = 0b11011110#8 := by
    rw [← BitVec.and_allOnes (x := field h 8 8)]
    exact row_iff_high_byte h 0xFF 0xDE
  refine ⟨⟨fun ⟨k, hk⟩ => ?_, fun hb => ?_⟩, ⟨fun ⟨k, hk⟩ => ?_, fun hb => ?_⟩⟩
  · exact htrap.1 ((hrow hk).resolve_right (by simp)).2
  · exact ⟨.thumb h, by rw [decode, decode_tUndCond14 (htrap.2 hb), undefinedForm]⟩
  · exact (inUnallocatedRow_iff h).1 ((hrow hk).resolve_left (by simp)).2
  · exact ⟨.thumb h, undefinedForm_of_row ((inUnallocatedRow_iff h).2 hb)⟩

end Sys2Proof.Laws

/-! # Proofs: the canonical form of memory

Memory changes by stores alone, and a store keeps the canonical form; so does whatever keeps memory. -/

namespace Sys2Proof.Machine

/-! ### The canonical form through the shared operations -/

/-- The form depends on memory alone. -/
theorem Canonical.of_mem_eq {s t : State} (h : Canonical s) (hmem : t.mem = s.mem) : Canonical t := by
  rw [Canonical, hmem]
  exact h

theorem Canonical.store {s : State} (h : Canonical s) (a : Word) (n : Width) (v : Word) : Canonical (s.store a n v) :=
  Memory.wf_store _ _ _ h

theorem Canonical.writeBack {s : State} (h : Canonical s) (wb : Bool) (rn : Reg) (ea : Word) :
    Canonical (writeBack wb rn ea s) :=
  h.of_mem_eq (mem_writeBack ..)

theorem Canonical.storeRegs {s : State} (h : Canonical s) (user : Bool) (x15 : Word) (rs : List Reg) (a : Word) :
    Canonical (storeRegs user x15 rs a s) := by
  induction rs generalizing a s with
  | nil => exact h
  | cons r rs ih => exact ih (h.store a .word _) _

theorem Canonical.storeMultiple {s : State} (h : Canonical s) (user wb : Bool) (rn : Reg) (start final : Word)
    (rs : List Reg) : Canonical (storeMultiple user wb rn start final rs s) := by
  cases rs with
  | nil => exact h.writeBack wb rn final
  | cons r rest => exact ((h.store start .word _).writeBack wb rn final).storeRegs ..

/-- No host action touches memory (R470, R492). -/
theorem mem_hostAct (a : HostAction) (s : State) : (hostAct a s).mem = s.mem := by
  cases a with
  | writeReg i v => exact State.mem_setReg ..
  | writeUserReg i v => exact State.mem_setUserReg ..
  | enter e => exact mem_takeException ..
  | branch | writeCpsr | writeSpsr | reset => rfl

theorem Canonical.hostAct {s : State} (h : Canonical s) (a : HostAction) : Canonical (hostAct a s) :=
  h.of_mem_eq (mem_hostAct a s)

theorem Canonical.serviceActs {s : State} (h : Canonical s) (os : List ServiceOp) : Canonical (serviceActs os s) := by
  induction os generalizing s with
  | nil => exact h
  | cons o os ih =>
    refine ih ?_
    cases o with
    | host a => exact h.hostAct a
    | busWrite a n v => exact h.store a n v

/-! ### Results -/

/-- The next state of a result, if there is one, satisfies `P`. -/
def EndsIn (P : State → Prop) : Result → Prop
  | .next t => P t
  | .refused _ | .fault _ => True

theorem endsIn_iff {P : State → Prop} {o : Result} : EndsIn P o ↔ ∀ t, o = .next t → P t := by
  cases o <;> simp [EndsIn]

theorem EndsIn.whenPassed {P : State → Prop} {s : State} {o : Result} (c : CondCode) (hs : P s) (h : EndsIn P o) :
    EndsIn P (whenPassed c s o) := by
  unfold Machine.whenPassed
  split
  · exact h
  · exact hs

theorem EndsIn.whenAdmitted {P : State → Prop} {s t : State} (a : Word) (n : Width) (h : P t) :
    EndsIn P (whenAdmitted s a n (.next t)) := by
  unfold Machine.whenAdmitted
  split
  · exact h
  · trivial

/-- The next state, if there is one, is canonical. -/
abbrev EndsCanonical (o : Result) : Prop := EndsIn Canonical o

theorem endsCanonical_storeTransfer {s : State} (h : Canonical s) (n : Width) (user wb : Bool) (rn rd : Reg)
    (x : Indexed) : EndsCanonical (storeTransfer n user wb rn rd x s) :=
  .whenAdmitted _ _ ((h.store _ _ _).writeBack ..)

theorem endsCanonical_swapWith {s : State} (h : Canonical s) (k : LoadKind) (rn rd rm : Reg) :
    EndsCanonical (swapWith k rn rd rm s) :=
  .whenAdmitted _ _ (((h.of_mem_eq (State.mem_load ..)).store _ _ _).of_mem_eq (State.mem_setReg ..))

theorem endsCanonical_thumbStore {s : State} (h : Canonical s) (n : Width) (rd : LowReg) (a : Word) :
    EndsCanonical (thumbStore n rd a s) :=
  .whenAdmitted _ _ (h.store _ _ _)

/-- A software interrupt, whatever its service is (R466). -/
theorem endsCanonical_softwareInterrupt {s : State} (h : Canonical s) (comment : BitVec 24) :
    EndsCanonical (softwareInterrupt comment s) := by
  unfold softwareInterrupt
  cases s.params.swi with
  | absent => trivial
  | vectored => exact h.of_mem_eq (mem_takeException ..)
  | external => exact Canonical.serviceActs (s := s.emit _) h _

/-! ### Every instruction and every step -/

/-- An instruction that neither stores nor interrupts keeps memory. -/
theorem endsCanonical_of_not_store {i : Instr} {s : State} (h : Canonical s) (hst : storesToMemory i = false)
    (hswi : isSwi i = false) : EndsCanonical (exec i s) := by
  obtain ⟨o, ho, he⟩ := exec_dataEffect i s
  have hswi' : isSwi i = true → s.params.swi ≠ .external := by simp [hswi]
  rw [he]
  exact .whenPassed _ h (endsIn_iff.2 fun t ht => h.of_mem_eq (ho.mem_eq hst hswi' ht))

theorem endsCanonical_exec (i : Instr) {s : State} (h : Canonical s) : EndsCanonical (exec i s) := by
  cases i with
  | swp | swpb => exact .whenPassed _ h (endsCanonical_swapWith h ..)
  | strhRegPre | strhRegPost | strhImmPre | strhImmPost | strImmPre | strImmPost | strtImm | strRegPre | strRegPost
  | strtReg | strbImmPre | strbImmPost | strbtImm | strbRegPre | strbRegPost | strbtReg =>
    exact .whenPassed _ h (endsCanonical_storeTransfer h ..)
  | stm => exact .whenPassed _ h (.whenAdmitted _ _ (h.storeMultiple ..))
  | tStrReg | tStrhReg | tStrbReg | tStrImm | tStrbImm | tStrhImm | tStrSp => exact endsCanonical_thumbStore h ..
  | tPush => exact .whenAdmitted _ _ ((h.storeRegs ..).of_mem_eq (State.mem_setReg ..))
  | tStmia => exact .whenAdmitted _ _ (h.storeMultiple ..)
  | swi => exact .whenPassed _ h (endsCanonical_softwareInterrupt h _)
  | tSwi => exact endsCanonical_softwareInterrupt h _
  | _ => exact endsCanonical_of_not_store h rfl rfl

theorem endsCanonical_coreStep {s : State} (h : Canonical s) : EndsCanonical (coreStep s) := by
  unfold coreStep
  split
  · exact endsCanonical_exec _ (h.of_mem_eq (State.mem_advance s))
  · trivial

theorem endsCanonical_step {s : State} (h : Canonical s) : EndsCanonical (step s) := by
  cases hs : s.schedule with
  | nil =>
    rw [step_nil hs]
    exact endsCanonical_coreStep h
  | cons turn turns =>
    have hd : Canonical { s with schedule := turns } := h
    rw [step_cons hs]
    cases turn with
    | core => exact endsCanonical_coreStep hd
    | host a => exact hd.hostAct a

/-- Settles O16: a step is one turn, and neither an instruction nor a host action breaks the form. -/
theorem stepKeepsMemoryCanonical : Obligations.StepKeepsMemoryCanonical :=
  ⟨fun _ t h => endsIn_iff.1 (endsCanonical_step h) t,
    fun i _ t h => endsIn_iff.1 (endsCanonical_exec i h) t⟩

end Sys2Proof.Machine

/-! # Proofs: block transfers

The registers of a list and the addresses of the four modes, and STM as the shared store multiple. -/

namespace Sys2Proof.Machine

/-- The list of a block transfer is in ascending order, as all the register numbers are. -/
theorem pairwise_regsOf (list : BitVec 16) : (regsOf list).Pairwise fun a b => a.toNat < b.toNat := by
  have hall : allRegs.Pairwise fun a b => a.toNat < b.toNat := by decide
  exact hall.filter _

theorem mem_allRegs (r : Reg) : r ∈ allRegs := by
  revert r
  decide

/-- The list names the registers whose bits are set. -/
theorem mem_regsOf (list : BitVec 16) (r : Reg) : r ∈ regsOf list ↔ list.getLsbD r.toNat = true := by
  rw [regsOf, List.mem_filter, and_iff_right (mem_allRegs r)]

/-- Settles O47: the order and the members of the list, and the addresses by the two bits of the mode. -/
theorem blockTransferAddresses : Obligations.BlockTransferAddresses := by
  intro list base n
  exact ⟨pairwise_regsOf list, mem_regsOf list, rfl, rfl, rfl, rfl, rfl, rfl⟩

/-- The loads of registers below r15 are no branch. -/
theorem blockLoads_ne_none {m : BitVec 5} {rs : List Reg} {start : Word} {mem : Memory} (h15 : 15#4 ∉ rs) :
    ∀ w ∈ blockLoads m rs start mem, w.1 ≠ none := by
  intro w hw
  obtain ⟨x, hx, rfl⟩ := List.mem_map.1 hw
  have hmem : x.1 ∈ rs := List.fst_mem_of_mem_zipIdx hx
  exact physReg_eq_none.not.2 fun h => h15 (h ▸ hmem)

theorem exec_stm_of_pass {c : CondCode} {p u ub w : Bool} {rn : Reg} {list : BitVec 16} {s : State}
    (hc : condPass c s.cpsr = true)
    (hacc : Aligned (blockStart p u (s.reg rn) (regsOf list).length) .word ∨ s.params.misaligned = .rotate) :
    exec (.stm c p u ub w rn list) s =
      .next (storeMultiple ub w rn (blockStart p u (s.reg rn) (regsOf list).length)
        (blockFinal u (s.reg rn) (regsOf list).length) (regsOf list) s) :=
  (whenPassed_of_pass hc _).trans (whenAdmitted_of_admitted _ hacc)

/-- Settles O49, from what a store multiple does. -/
theorem storeMultipleInEveryForm : Obligations.StoreMultiple := by
  intro c p u ub w rn list s n start wb words hc hacc
  have hl : (regsOf list).length ≤ 64 := (length_regsOf list).trans (by decide)
  obtain ⟨hregs, hwords, hstate⟩ := storeMultiple_spec ub w rn start (blockFinal u (s.reg rn) n) (regsOf list) s hl
  exact ⟨_, exec_stm_of_pass hc hacc, hregs, hwords, hstate⟩

end Sys2Proof.Machine

/-! # Proofs: the frame of the program counter and of the flags

What every instruction leaves of the program counter and of the condition flags is said once, for the operations that
the instructions share (`PcFlagsFrame`, `exec_pcFlagsFrame`). -/

namespace Sys2Proof.Machine

/-! ### The frame -/

/-- Two status registers agree on the condition flags. -/
def SameFlags (p q : Psr) : Prop := q.n = p.n ∧ q.z = p.z ∧ q.c = p.c ∧ q.v = p.v

theorem SameFlags.refl (p : Psr) : SameFlags p p := ⟨rfl, rfl, rfl, rfl⟩

theorem SameFlags.trans {p q r : Psr} : SameFlags p q → SameFlags q r → SameFlags p r :=
  fun ⟨hn, hz, hc, hv⟩ ⟨hn', hz', hc', hv'⟩ => ⟨hn'.trans hn, hz'.trans hz, hc'.trans hc, hv'.trans hv⟩

/-- What an operation that leads from `s` to `t` leaves: it changes the program counter only if `branches`, and the
condition flags only if `flags`. -/
structure PcFlagsFrame (branches flags : Bool) (s t : State) : Prop where
  pc : branches = false → t.pc = s.pc
  flags : flags = false → SameFlags s.cpsr t.cpsr

namespace PcFlagsFrame

variable {b f : Bool} {s t u : State}

theorem refl (s : State) : PcFlagsFrame b f s s := ⟨fun _ => rfl, fun _ => .refl _⟩

theorem trans (h : PcFlagsFrame b f s t) (h' : PcFlagsFrame b f t u) : PcFlagsFrame b f s u :=
  ⟨fun hb => (h'.pc hb).trans (h.pc hb), fun hf => (h.flags hf).trans (h'.flags hf)⟩

/-- An operation that leaves the program counter and the status register alone. -/
theorem of_eq (hpc : t.pc = s.pc) (hc : t.cpsr = s.cpsr) : PcFlagsFrame b f s t :=
  ⟨fun _ => hpc, fun _ => hc ▸ .refl _⟩

theorem load (k : LoadKind) (a : Word) : PcFlagsFrame b f s (s.load k a) := of_eq rfl rfl

theorem store (a : Word) (n : Width) (v : Word) : PcFlagsFrame b f s (s.store a n v) := of_eq rfl rfl

theorem emit (e : Event) : PcFlagsFrame b f s (s.emit e) := of_eq rfl rfl

/-- A write of the flags. -/
theorem withCpsr (p : Psr) : PcFlagsFrame b true s (s.withCpsr p) := ⟨fun _ => rfl, nofun⟩

theorem branch (v : Word) : PcFlagsFrame true f s (s.branch v) := ⟨nofun, fun _ => .refl _⟩

/-- A register write is a branch only for r15 (R34). -/
theorem writeAt (q : Option PReg) (v : Word) (hb : b = false → q ≠ none) : PcFlagsFrame b f s (s.writeAt q v) :=
  ⟨fun h => by rw [State.pc_writeAt, if_neg (hb h)], fun _ => by rw [State.cpsr_writeAt]; exact .refl _⟩

theorem setReg (i : Reg) (v : Word) (hb : b = false → i ≠ 15#4) : PcFlagsFrame b f s (s.setReg i v) :=
  writeAt _ v fun h => physReg_eq_none.not.2 (hb h)

theorem setLow (i : LowReg) (v : Word) : PcFlagsFrame b f s (s.setLow i v) := writeAt _ v fun _ => by simp

/-- A branch, as far as the flags go. -/
theorem of_cpsr_eq (hc : t.cpsr = s.cpsr) : PcFlagsFrame true f s t := ⟨nofun, fun _ => hc ▸ .refl _⟩

/-- An operation of which it is known which registers it writes, in order. -/
theorem of_registersAfter {ws : List RegWrite} {thumb : Bool} (hr : RegistersAfter ws thumb s t)
    (hb : b = false → ∀ w ∈ ws, w.1 ≠ none) (hc : f = false → t.cpsr = s.cpsr) : PcFlagsFrame b f s t :=
  ⟨fun h => hr.2.trans (pcAfter_of_no_branch _ (hb h)), fun h => hc h ▸ .refl _⟩

/-- An operation that writes one register. -/
theorem of_one_write {rd : Reg} {r : Word} {thumb : Bool} (hr : RegistersAfter [(s.phys rd, r)] thumb s t)
    (hc : f = false → t.cpsr = s.cpsr) : PcFlagsFrame (decide (rd = 15#4)) f s t :=
  of_registersAfter hr (fun h => by simpa [State.phys, physReg_eq_none] using h) hc

/-! ### Data processing, multiplies and PSR transfer

Without the S bit the three templates leave the status register alone. -/

theorem dpLogical (sf : Bool) (rd : Reg) (r : Word) (sc : Bool) :
    PcFlagsFrame (decide (rd = 15#4)) sf s (dpLogical sf rd r sc s) := by
  obtain ⟨hr, he⟩ := dpLogical_spec sf rd r sc s
  refine of_one_write hr ?_
  rintro rfl
  rw [he]
  rfl

theorem dpArith (sf : Bool) (rd : Reg) (g : Flagged) :
    PcFlagsFrame (decide (rd = 15#4)) sf s (dpArith sf rd g s) := by
  obtain ⟨hr, he⟩ := dpArith_spec sf rd g s
  refine of_one_write hr ?_
  rintro rfl
  rw [he]
  rfl

theorem mulResult (sf : Bool) (rd : Reg) (r : Word) :
    PcFlagsFrame (decide (rd = 15#4)) sf s (mulResult sf rd r s) := by
  obtain ⟨hr, he⟩ := mulResult_spec sf rd r s
  refine of_one_write hr ?_
  rintro rfl
  rw [he]
  rfl

theorem mulLongResult (sf : Bool) (rdHi rdLo : Reg) (r : BitVec 64) :
    PcFlagsFrame (decide (rdHi = 15#4) || decide (rdLo = 15#4)) sf s (mulLongResult sf rdHi rdLo r s) := by
  obtain ⟨hr, he⟩ := mulLongResult_spec sf rdHi rdLo r s
  refine of_registersAfter hr (fun h => by simpa [State.phys, physReg_eq_none, and_comm] using h) ?_
  rintro rfl
  rw [he]
  rfl

/-- Without the flags field MSR keeps the flags (R201). -/
theorem sameFlags_psrFields (fc : Bool) (v : Word) (p : Psr) : SameFlags p (psrFields false fc v p) := by
  cases fc <;> exact ⟨rfl, rfl, rfl, rfl⟩

theorem psrWrite (p ff fc : Bool) (v : Word) : PcFlagsFrame b (!p && ff) s (psrWrite p ff fc v s) := by
  cases p with
  | true =>
    rw [(psrWrite_saved_spec ff fc v s).1]
    exact of_eq rfl rfl
  | false =>
    refine ⟨fun _ => rfl, fun h => ?_⟩
    obtain rfl : ff = false := h
    exact sameFlags_psrFields _ v _

/-! ### Transfers -/

theorem setTransferReg (user : Bool) (rd : Reg) (v : Word) (hb : b = false → rd ≠ 15#4) :
    PcFlagsFrame b f s (setTransferReg user rd v s) := by
  rw [setTransferReg_eq]
  exact writeAt _ v fun h => physReg_eq_none.not.2 (hb h)

theorem writeBack (wb : Bool) (rn : Reg) (ea : Word) (hb : b = false → wb = true → rn ≠ 15#4) :
    PcFlagsFrame b f s (writeBack wb rn ea s) := by
  cases wb with
  | false => exact refl s
  | true => exact setReg rn ea fun h => hb h rfl

theorem loadRegs (user : Bool) (rs : List Reg) (a : Word) (hb : b = false → 15#4 ∉ rs) :
    PcFlagsFrame b f s (loadRegs user rs a s) := by
  induction rs generalizing a s with
  | nil => exact refl s
  | cons r rs ih =>
    simp only [List.mem_cons, not_or] at hb
    exact ((load .word a).trans (setTransferReg user r _ fun h => Ne.symm (hb h).1)).trans (ih _ fun h => (hb h).2)

theorem storeRegs (user : Bool) (x15 : Word) (rs : List Reg) (a : Word) :
    PcFlagsFrame b f s (storeRegs user x15 rs a s) := by
  induction rs generalizing a s with
  | nil => exact refl s
  | cons r rs ih => exact (store a .word _).trans (ih _)

theorem storeMultiple (user wb : Bool) (rn : Reg) (start final : Word) (rs : List Reg)
    (hb : b = false → wb = true → rn ≠ 15#4) :
    PcFlagsFrame b f s (storeMultiple user wb rn start final rs s) := by
  cases rs with
  | nil => exact writeBack wb rn final hb
  | cons r rest => exact ((store start .word _).trans (writeBack wb rn final hb)).trans (storeRegs ..)

/-- A load multiple that does not load r15 loads only r0 to r14 (R291). -/
theorem loadMultiple (ub wb : Bool) (rn : Reg) (start final : Word) (list : BitVec 16) :
    PcFlagsFrame (list.getLsbD 15 || wb && decide (rn = 15#4)) (ub && list.getLsbD 15) s
      (loadMultiple ub wb rn start final list s) := by
  obtain ⟨hr, he⟩ := loadMultiple_spec ub wb rn start final list s
  refine of_registersAfter hr (fun h => ?_) fun h => ?_
  · obtain ⟨hlist, hwb⟩ := Bool.or_eq_false_iff.1 h
    have hpc : 15#4 ∉ regsOf list := (mem_regsOf list 15#4).not.2 (Bool.eq_false_iff.1 hlist)
    refine List.forall_mem_append.2 ⟨?_, blockLoads_ne_none hpc⟩
    cases wb with
    | false => exact nofun
    | true => simpa [State.phys, physReg_eq_none] using hwb
  · rw [he, h]
    rfl

/-! ### Branches, exceptions and software interrupts -/

theorem branchExchange (v : Word) : PcFlagsFrame true f s (branchExchange v s) := ⟨nofun, fun _ => .refl _⟩

theorem thumbBranchIf (c : CondCode) (off : BitVec 8) : PcFlagsFrame true f s (thumbBranchIf c off s) := by
  unfold Machine.thumbBranchIf
  split
  · exact branch _
  · exact refl s

theorem takeException (e : ArchException) : PcFlagsFrame true f s (takeException e s) :=
  ⟨nofun, fun _ => by rw [cpsr_takeException]; exact .refl _⟩

end PcFlagsFrame

/-! ### Instructions that share a template -/

section
variable {f : Bool} {s : State}

theorem pcFlagsFrame_loadTransfer (k : LoadKind) (user wb : Bool) (rn rd : Reg) (x : Indexed) :
    EndsIn (PcFlagsFrame (decide (rd = 15#4) || wb && decide (rn = 15#4)) f s) (loadTransfer k user wb rn rd x s) := by
  refine .whenAdmitted _ _
    (((PcFlagsFrame.load k _).trans (.writeBack wb rn _ ?_)).trans (.setTransferReg user rd _ ?_))
  all_goals simp +contextual

theorem pcFlagsFrame_storeTransfer (n : Width) (user wb : Bool) (rn rd : Reg) (x : Indexed) :
    EndsIn (PcFlagsFrame (wb && decide (rn = 15#4)) f s) (storeTransfer n user wb rn rd x s) :=
  .whenAdmitted _ _ ((PcFlagsFrame.store _ n _).trans (.writeBack wb rn _ (by simp +contextual)))

theorem pcFlagsFrame_swapWith (k : LoadKind) (rn rd rm : Reg) :
    EndsIn (PcFlagsFrame (decide (rd = 15#4)) f s) (swapWith k rn rd rm s) :=
  .whenAdmitted _ _ (((PcFlagsFrame.load k _).trans (.store _ _ _)).trans (.setReg rd _ of_decide_eq_false))

theorem pcFlagsFrame_thumbLoad {b : Bool} (k : LoadKind) (rd : LowReg) (a : Word) :
    EndsIn (PcFlagsFrame b f s) (thumbLoad k rd a s) :=
  .whenAdmitted _ _ ((PcFlagsFrame.load k a).trans (.setLow rd _))

theorem pcFlagsFrame_thumbStore {b : Bool} (n : Width) (rd : LowReg) (a : Word) :
    EndsIn (PcFlagsFrame b f s) (thumbStore n rd a s) :=
  .whenAdmitted _ _ (PcFlagsFrame.store a n _)

theorem pcFlagsFrame_undefinedArm {b : Bool} (k : UndefKind) (w : Word) :
    EndsIn (PcFlagsFrame b f s) (undefinedArm k w s) :=
  .whenPassed _ (.refl s) (PcFlagsFrame.emit _)

/-- A software interrupt that no external service answers is refused, or an exception entry (R466). -/
theorem pcFlagsFrame_softwareInterrupt (comment : BitVec 24) (h : s.params.swi ≠ .external) :
    EndsIn (PcFlagsFrame true f s) (softwareInterrupt comment s) := by
  unfold softwareInterrupt
  cases hs : s.params.swi with
  | absent => trivial
  | vectored => exact (PcFlagsFrame.emit _).trans (.takeException _)
  | external => exact absurd hs h

end

/-- A 3-bit register number does not name r15. -/
theorem lowReg_ne_pc (i : LowReg) : lowReg i ≠ 15#4 := by
  have h : physReg 0#5 (lowReg i) ≠ none := by simp
  exact physReg_eq_none.not.1 h

/-! ### Every instruction -/

/-- What every instruction leaves of the program counter and the flags. Each case is an operation that the instructions
named there share; `exec` unfolds to it. -/
theorem exec_pcFlagsFrame (i : Instr) (s : State) (hi : isSwi i = true → s.params.swi ≠ .external) :
    EndsIn (PcFlagsFrame (mayBranch i) (writesFlags i) s) (exec i s) := by
  cases i with
  | andImm | andReg | andRsr | eorImm | eorReg | eorRsr | orrImm | orrReg | orrRsr | movImm | movReg | movRsr
  | bicImm | bicReg | bicRsr | mvnImm | mvnReg | mvnRsr => exact .whenPassed _ (.refl s) (PcFlagsFrame.dpLogical ..)
  | subImm | subReg | subRsr | rsbImm | rsbReg | rsbRsr | addImm | addReg | addRsr | adcImm | adcReg | adcRsr
  | sbcImm | sbcReg | sbcRsr | rscImm | rscReg | rscRsr => exact .whenPassed _ (.refl s) (PcFlagsFrame.dpArith ..)
  | tstImm | tstReg | tstRsr | teqImm | teqReg | teqRsr | cmpImm | cmpReg | cmpRsr | cmnImm | cmnReg | cmnRsr =>
    exact .whenPassed _ (.refl s) (PcFlagsFrame.withCpsr _)
  | mrs => exact .whenPassed _ (.refl s) (PcFlagsFrame.setReg _ _ of_decide_eq_false)
  | msrReg | msrImm => exact .whenPassed _ (.refl s) (PcFlagsFrame.psrWrite ..)
  | mul | mla => exact .whenPassed _ (.refl s) (PcFlagsFrame.mulResult ..)
  | umull | umlal | smull | smlal => exact .whenPassed _ (.refl s) (PcFlagsFrame.mulLongResult ..)
  | swp | swpb => exact .whenPassed _ (.refl s) (pcFlagsFrame_swapWith ..)
  | ldrhRegPre | ldrhRegPost | ldrhImmPre | ldrhImmPost | ldrsbRegPre | ldrsbRegPost | ldrsbImmPre | ldrsbImmPost
  | ldrshRegPre | ldrshRegPost | ldrshImmPre | ldrshImmPost | ldrImmPre | ldrImmPost | ldrtImm | ldrRegPre | ldrRegPost
  | ldrtReg | ldrbImmPre | ldrbImmPost | ldrbtImm | ldrbRegPre | ldrbRegPost | ldrbtReg =>
    exact .whenPassed _ (.refl s) (pcFlagsFrame_loadTransfer ..)
  | strhRegPre | strhRegPost | strhImmPre | strhImmPost | strImmPre | strImmPost | strtImm | strRegPre | strRegPost
  | strtReg | strbImmPre | strbImmPost | strbtImm | strbRegPre | strbRegPost | strbtReg =>
    exact .whenPassed _ (.refl s) (pcFlagsFrame_storeTransfer ..)
  | ldm => exact .whenPassed _ (.refl s) (.whenAdmitted _ _ (PcFlagsFrame.loadMultiple ..))
  | stm c p u ub w rn list =>
    refine .whenPassed _ (.refl s) (.whenAdmitted _ _ (PcFlagsFrame.storeMultiple _ _ _ _ _ _ ?_))
    simp +contextual [mayBranch]
  | bx => exact .whenPassed _ (.refl s) (PcFlagsFrame.branchExchange _)
  | b => exact .whenPassed _ (.refl s) (PcFlagsFrame.branch _)
  | bl => exact .whenPassed _ (.refl s) (PcFlagsFrame.of_cpsr_eq (State.cpsr_setReg ..))
  | swi => exact .whenPassed _ (.refl s) (pcFlagsFrame_softwareInterrupt _ (hi rfl))
  | undMulSpace | undTestReg | undTestRsr | undTestImm | undClass011 | undCopTransfer | undCopOp =>
    exact pcFlagsFrame_undefinedArm ..
  | tLslImm | tLsrImm | tAsrImm | tLslReg | tLsrReg | tAsrReg | tRorReg | tMul | tAddReg | tSubReg | tAddImm3 | tSubImm3
  | tAddImm8 | tSubImm8 | tAdc | tSbc | tNeg | tMovImm8 | tAnd | tEor | tOrr | tBic | tMvn =>
    exact (PcFlagsFrame.withCpsr _).trans (.setLow _ _)
  | tCmpImm8 | tCmp | tCmn | tCmpHi | tTst => exact PcFlagsFrame.withCpsr _
  | tAddHi | tMovHi => exact PcFlagsFrame.setReg _ _ of_decide_eq_false
  | tAddPc | tAddSp => exact PcFlagsFrame.setLow _ _
  | tSpPlus | tSpMinus | tBlHigh => exact PcFlagsFrame.setReg _ _ fun _ => by decide
  | tBx => exact PcFlagsFrame.branchExchange _
  | tLdrPc | tLdsbReg | tLdrReg | tLdrhReg | tLdrbReg | tLdshReg | tLdrImm | tLdrbImm | tLdrhImm | tLdrSp =>
    exact pcFlagsFrame_thumbLoad ..
  | tStrReg | tStrhReg | tStrbReg | tStrImm | tStrbImm | tStrhImm | tStrSp => exact pcFlagsFrame_thumbStore ..
  | tPush =>
    exact .whenAdmitted _ _ ((PcFlagsFrame.storeRegs ..).trans (.setReg _ _ fun _ => by decide))
  | tPop r list =>
    have h {b : Bool} (ea : Word) :
        PcFlagsFrame b false s ((loadRegs false (lowRegsOf list) (s.reg sp) s).setReg sp ea) :=
      (PcFlagsFrame.loadRegs _ _ _ fun _ => not_mem_lowRegsOf list).trans (.setReg _ _ fun _ => by decide)
    refine .whenAdmitted _ _ ?_
    cases r with
    | false => exact h _
    | true => exact ((h _).trans (.load ..)).trans (.branch _)
  | tStmia rb list => exact .whenAdmitted _ _ (PcFlagsFrame.storeMultiple _ _ _ _ _ _ fun _ _ => lowReg_ne_pc rb)
  | tLdmia rb list =>
    exact .whenAdmitted _ _ ((PcFlagsFrame.setLow ..).trans (.loadRegs _ _ _ fun _ => not_mem_lowRegsOf list))
  | tBeq | tBne | tBcs | tBcc | tBmi | tBpl | tBvs | tBvc | tBhi | tBls | tBge | tBlt | tBgt | tBle =>
    exact PcFlagsFrame.thumbBranchIf ..
  | tSwi => exact pcFlagsFrame_softwareInterrupt _ (hi rfl)
  | tB => exact PcFlagsFrame.branch _
  | tBlLow => exact PcFlagsFrame.of_cpsr_eq (State.cpsr_setReg ..)
  | tUndCond14 | tUndB1 | tUndB2 | tUndB6 | tUndB8 | tUndBe | tUndE8 => exact PcFlagsFrame.emit _

/-- A software interrupt may branch. -/
theorem isSwi_of_not_mayBranch {i : Instr} (h : mayBranch i = false) : isSwi i = false := by
  unfold isSwi
  split
  · exact absurd h nofun
  · exact absurd h nofun
  · rfl

/-- Settles O10, from what every instruction leaves of the flags. -/
theorem onlyFlagWritersChangeFlags : Obligations.OnlyFlagWritersChangeFlags := by
  intro i s t hw hi ht
  exact (endsIn_iff.1 (exec_pcFlagsFrame i s hi) t ht).flags hw

/-- Settles O8: the program counter has advanced, and an instruction that does not branch leaves it there. -/
theorem instructionsThatDoNotBranchAdvance : Obligations.InstructionsThatDoNotBranchAdvance := by
  intro s t hc hb ht
  obtain ⟨turns, hstep⟩ := step_of_coreTurn hc
  have hexec : exec (nextInstr s) (advance { s with schedule := turns }) = .next t :=
    exec_of_coreStep_eq_next (hstep ▸ ht)
  have hswi : isSwi (nextInstr s) = true → s.params.swi ≠ .external := by simp [isSwi_of_not_mayBranch hb]
  exact (endsIn_iff.1 (exec_pcFlagsFrame _ (advance { s with schedule := turns }) hswi) t hexec).pc hb

end Sys2Proof.Machine

/-! # Proofs: the shifter, the complement and the image of a status register

The shifter is read bit by bit through `shiftBy`, the shift by an amount from 1 to 31, that immediate and register
amounts share. -/

namespace Sys2Proof.Machine

/-- Settles O22, by the adder law of the subtracter. -/
theorem subtractionAddsTheComplement : Obligations.SubtractionAddsTheComplement := subFlags_eq_addFlags_not

/-! ### A shift by 1 to 31, bit by bit -/

theorem msb_word (v : Word) : v.msb = v.getLsbD 31 := BitVec.msb_eq_getLsbD_last v

theorem getLsbD_shiftBy_lsl (v : Word) (n : Nat) {j : Nat} (hj : j < 32) :
    (shiftBy .lsl v n).1.getLsbD j = (decide (n ≤ j) && v.getLsbD (j - n)) := by
  simp only [shiftBy, BitVec.getLsbD_shiftLeft, hj, decide_true, Bool.true_and, ← Nat.not_lt, decide_not]

theorem getLsbD_shiftBy_lsr (v : Word) (n j : Nat) : (shiftBy .lsr v n).1.getLsbD j = v.getLsbD (j + n) := by
  simp [shiftBy, Nat.add_comm]

/-- The sign bit comes in from the left. -/
theorem getLsbD_shiftBy_asr (v : Word) (n : Nat) {j : Nat} (hj : j < 32) :
    (shiftBy .asr v n).1.getLsbD j = v.getLsbD (min (j + n) 31) := by
  rw [shiftBy, BitVec.getLsbD_sshiftRight, msb_word, Nat.add_comm n j]
  by_cases h : j + n < 32
  · simp [hj, h, Nat.min_eq_left (Nat.le_of_lt_succ h)]
  · simp [hj, h, Nat.min_eq_right (show 31 ≤ j + n by omega)]

/-- Bit `j` of a rotated word is `n` places to the left of it, around the word. -/
theorem getLsbD_rotateRight_word (v : Word) {n j : Nat} (hn : n < 32) (hj : j < 32) :
    (v.rotateRight n).getLsbD j = v.getLsbD ((j + n) % 32) := by
  rw [BitVec.getLsbD_rotateRight_of_lt hn]
  by_cases h : j < 32 - n
  · simp [h, Nat.add_comm n j, Nat.mod_eq_of_lt (show j + n < 32 by omega)]
  · simp [h, hj, show (j + n) % 32 = j - (32 - n) by omega]

/-- The fill of an arithmetic shift by 32 and more. -/
theorem getLsbD_signFill (v : Word) {j : Nat} (hj : j < 32) : (signFill v).getLsbD j = v.getLsbD 31 := by
  rw [signFill, msb_word]
  cases v.getLsbD 31
  · simp
  · simpa using BitVec.getLsbD_allOnes (v := 32) (i := j) ▸ decide_eq_true hj

/-- The rotation by one through the carry. -/
theorem getLsbD_rrx (v : Word) (cin : Bool) {j : Nat} (hj : j < 32) :
    ((BitVec.ofBool cin).setWidth 32 <<< 31 ||| v >>> 1).getLsbD j = if j = 31 then cin else v.getLsbD (j + 1) := by
  by_cases h : j = 31
  · simp [h]
  · have hlt : j < 31 := by omega
    simp [h, hlt, Nat.add_comm 1 j]

/-! ### An immediate amount -/

theorem shiftImm_of_ne_zero (ty : ShiftType) (v : Word) {n : BitVec 5} (cin : Bool) (hn : n ≠ 0#5) :
    shiftImm ty v n cin = shiftBy ty v n.toNat := if_neg hn

/-- LSL by every amount, 0 included. -/
theorem shiftImm_lsl (v : Word) (n : BitVec 5) (cin : Bool) {j : Nat} (hj : j < 32) :
    ((shiftImm .lsl v n cin).1.getLsbD j = (decide (n.toNat ≤ j) && v.getLsbD (j - n.toNat))) ∧
      (shiftImm .lsl v n cin).2 = if n = 0#5 then cin else v.getLsbD (32 - n.toNat) := by
  by_cases hn : n = 0#5
  · subst hn
    exact ⟨by simp [shiftImm], rfl⟩
  · rw [shiftImm_of_ne_zero _ v cin hn, if_neg hn]
    exact ⟨getLsbD_shiftBy_lsl v _ hj, rfl⟩

/-- A rotated byte, bit by bit, rotation 0 included (R107). -/
theorem getLsbD_rotatedImm (rot : BitVec 4) (b : BitVec 8) (cin : Bool) {j : Nat} (hj : j < 32) :
    (rotatedImm rot b cin).1.getLsbD j = b.getLsbD ((j + 2 * rot.toNat) % 32) := by
  have hrot := rot.isLt
  have hmod : (j + 2 * rot.toNat) % 32 < 32 := Nat.mod_lt _ (by decide)
  by_cases h : rot = 0#4
  · subst h
    simp [rotatedImm, hj, Nat.mod_eq_of_lt hj]
  · rw [rotatedImm, if_neg h]
    exact (getLsbD_rotateRight_word _ (by omega) hj).trans (by simp [hmod])

theorem carry_rotatedImm (rot : BitVec 4) (b : BitVec 8) (cin : Bool) :
    (rotatedImm rot b cin).2 = if rot = 0#4 then cin else (rotatedImm rot b cin).1.getLsbD 31 := by
  unfold rotatedImm
  split
  · rfl
  · exact msb_word _

/-- Settles O24, bit by bit: amounts 1 to 31 by `shiftBy`, amount 0 by the case of each type. -/
theorem shiftByImmediate : Obligations.ShiftByImmediate := by
  refine ⟨fun v n cin j hj => ?_,
    fun rot b cin => ⟨fun j => getLsbD_rotatedImm rot b cin, carry_rotatedImm rot b cin⟩⟩
  obtain ⟨hbits, hcarry⟩ := shiftImm_lsl v n cin hj
  refine ⟨hbits, hcarry, fun hn => ?_, ?_, getLsbD_signFill v hj, msb_word v, getLsbD_rrx v cin hj, rfl⟩
  · have hshift (ty : ShiftType) := shiftImm_of_ne_zero ty v cin hn
    rw [hshift, hshift, hshift]
    exact ⟨getLsbD_shiftBy_lsr v _ j, getLsbD_shiftBy_asr v _ hj, getLsbD_rotateRight_word v n.isLt hj,
      rfl, rfl, rfl⟩
  · rw [← msb_word]
    rfl

/-! ### A register amount -/

/-- The low five bits of a register amount, as an immediate amount. -/
theorem shiftImm_setWidth (ty : ShiftType) (v : Word) (n : Byte) (cin : Bool) (hn : n.toNat % 32 ≠ 0) :
    shiftImm ty v (n.setWidth 5) cin = shiftBy ty v (n.toNat % 32) := by
  have hne : n.setWidth 5 ≠ 0#5 := fun h => hn (by simpa using congrArg BitVec.toNat h)
  rw [shiftImm_of_ne_zero ty v cin hne, BitVec.toNat_setWidth]

theorem shiftReg_of_lt (ty : ShiftType) (v : Word) {n : Byte} (cin : Bool) (h0 : 0 < n.toNat) (h : n.toNat < 32) :
    shiftReg ty v n cin = shiftBy ty v n.toNat := by
  have hne : n ≠ 0#8 := fun hz => by simp [hz] at h0
  simp only [shiftReg, if_neg hne, if_pos h]

/-! An amount of 32 or more, for each type (R158). -/

section
variable (v : Word) {n : Byte} (cin : Bool) (h : 32 ≤ n.toNat)
include h

theorem amount_ne_zero : n ≠ 0#8 := fun hz => by simp [hz] at h

theorem shiftReg_lsl_of_ge : shiftReg .lsl v n cin = (0#32, decide (n.toNat = 32) && v.getLsbD 0) := by
  simp only [shiftReg, if_neg (amount_ne_zero h), if_neg (Nat.not_lt.2 h)]

theorem shiftReg_lsr_of_ge : shiftReg .lsr v n cin = (0#32, decide (n.toNat = 32) && v.getLsbD 31) := by
  simp only [shiftReg, if_neg (amount_ne_zero h), if_neg (Nat.not_lt.2 h), msb_word]

theorem shiftReg_asr_of_ge :
    shiftReg .asr v n cin = (if v.getLsbD 31 then 0xFFFFFFFF#32 else 0#32, v.getLsbD 31) := by
  simp only [shiftReg, if_neg (amount_ne_zero h), if_neg (Nat.not_lt.2 h), signFill, msb_word]

theorem shiftReg_ror_of_ge : shiftReg .ror v n cin =
    if n.toNat % 32 = 0 then (v, v.getLsbD 31) else shiftImm .ror v (n.setWidth 5) cin := by
  simp only [shiftReg, if_neg (amount_ne_zero h), if_neg (Nat.not_lt.2 h), msb_word]
  split_ifs with h0
  · rfl
  · exact (shiftImm_setWidth .ror v n cin h0).symm

end

/-- Settles O25, by the size of the amount. -/
theorem shiftByRegister : Obligations.ShiftByRegister := by
  intro ty v n cin
  refine ⟨fun h => if_pos h, fun h0 h => ?_, fun h => ?_, fun h => ?_,
    fun h => ⟨shiftReg_asr_of_ge v cin h, shiftReg_ror_of_ge v cin h⟩⟩
  · rw [shiftReg_of_lt ty v cin h0 h, shiftImm_setWidth ty v n cin (by omega), Nat.mod_eq_of_lt h]
  · simp [shiftReg_lsl_of_ge v cin h.ge, shiftReg_lsr_of_ge v cin h.ge, h]
  · simp [shiftReg_lsl_of_ge v cin h.le, shiftReg_lsr_of_ge v cin h.le, h.ne']

/-! ### The image of a status register -/

/-- The written image, read back (R25). -/
theorem ofWord_toWord (p : Psr) : Psr.ofWord p.toWord = p := by
  have hm : p.toWord.setWidth 5 = p.m := by
    refine BitVec.eq_of_getLsbD_eq fun k hk => ?_
    simp [getLsbD_toWord p (show k < 32 by omega), hk]
  simp (disch := decide) only [Psr.ofWord, Psr.withFlagsOf, Psr.withControlOf, getLsbD_toWord, hm]
  rfl

/-- Settles O26: each field at its place in the image, and the unused bits of a word lost. -/
theorem statusImage : Obligations.StatusImage := by
  refine ⟨fun p => ?_, fun w => toWord_withControlOf_withFlagsOf .zero w⟩
  have hbit {k : Nat} (hk : k < 32) := getLsbD_toWord p hk
  refine ⟨hbit (by decide), hbit (by decide), hbit (by decide), hbit (by decide), ?_, hbit (by decide),
    hbit (by decide), hbit (by decide), ?_, ofWord_toWord p⟩
  · refine BitVec.eq_of_getLsbD_eq fun k hk => ?_
    rw [BitVec.getLsbD_extractLsb', hbit (by omega)]
    interval_cases k <;> simp
  · refine BitVec.eq_of_getLsbD_eq fun k hk => ?_
    rw [BitVec.getLsbD_extractLsb', hbit (by omega)]
    simp [hk]

end Sys2Proof.Machine

/-! # Proofs: canonical memories

Memories in canonical form are told apart by a byte: the lowest address that one of them lists reads as its byte there,
which is not the unlisted one. -/

namespace Sys2Proof.Machine

namespace Memory

theorem wfFrom_cons {lo k : Nat} {b : Byte} {rest : Memory} :
    wfFrom lo ((k, b) :: rest) = true ↔ lo ≤ k ∧ k < 2 ^ 32 ∧ b ≠ unlisted ∧ wfFrom (k + 1) rest = true := by
  simp only [wfFrom, Bool.and_eq_true, decide_eq_true_eq, and_assoc]

theorem read_cons_self (k : Nat) (b : Byte) (rest : Memory) : read ((k, b) :: rest) k = b := if_pos rfl

theorem read_cons_of_ne {k a : Nat} (b : Byte) (rest : Memory) (h : a ≠ k) : read ((k, b) :: rest) a = read rest a :=
  if_neg h

/-- Below its lowest address a canonical memory lists nothing. -/
theorem read_eq_unlisted_of_lt {lo a : Nat} {m : Memory} (hm : wfFrom lo m = true) (ha : a < lo) :
    m.read a = unlisted := by
  induction m generalizing lo with
  | nil => rfl
  | cons c rest ih =>
    obtain ⟨k, b⟩ := c
    obtain ⟨hlo, -, -, hrest⟩ := wfFrom_cons.1 hm
    rw [read_cons_of_ne b rest (by omega)]
    exact ih hrest (by omega)

/-- A memory that lists an address does not have the bytes of a canonical memory that starts above it. -/
theorem head_not_lt_of_same_bytes {lo lo' k : Nat} {b : Byte} {rest m : Memory}
    (h : wfFrom lo ((k, b) :: rest) = true) (hm : wfFrom lo' m = true)
    (hsame : ∀ a < 2 ^ 32, read ((k, b) :: rest) a = m.read a) : ¬ k < lo' := by
  obtain ⟨-, hk, hb, -⟩ := wfFrom_cons.1 h
  intro hlt
  exact hb ((read_cons_self k b rest).symm.trans ((hsame k hk).trans (read_eq_unlisted_of_lt hm hlt)))

/-- A canonical memory is canonical from its own lowest address on. -/
theorem wfFrom_head {lo k : Nat} {b : Byte} {rest : Memory} (h : wfFrom lo ((k, b) :: rest) = true) :
    wfFrom k ((k, b) :: rest) = true := by
  obtain ⟨-, h⟩ := wfFrom_cons.1 h
  exact wfFrom_cons.2 ⟨le_rfl, h⟩

/-- From the same bound on, a canonical memory is determined by its bytes. -/
theorem eq_of_wfFrom {lo : Nat} {m m' : Memory} (hm : wfFrom lo m = true) (hm' : wfFrom lo m' = true)
    (hsame : ∀ a < 2 ^ 32, m.read a = m'.read a) : m = m' := by
  have hsame' : ∀ a < 2 ^ 32, m'.read a = m.read a := fun a ha => (hsame a ha).symm
  induction m generalizing lo m' with
  | nil =>
    cases m' with
    | nil => rfl
    | cons c' rest' =>
      have hnil : wfFrom (c'.1 + 1) [] = true := rfl
      exact absurd (Nat.lt_succ_self c'.1) (head_not_lt_of_same_bytes hm' hnil hsame')
  | cons c rest ih =>
    cases m' with
    | nil =>
      have hnil : wfFrom (c.1 + 1) [] = true := rfl
      exact absurd (Nat.lt_succ_self c.1) (head_not_lt_of_same_bytes hm hnil hsame)
    | cons c' rest' =>
      obtain ⟨k, b⟩ := c
      obtain ⟨k', b'⟩ := c'
      obtain rfl : k = k' := Nat.le_antisymm
        (Nat.not_lt.1 (head_not_lt_of_same_bytes hm' (wfFrom_head hm) hsame'))
        (Nat.not_lt.1 (head_not_lt_of_same_bytes hm (wfFrom_head hm') hsame))
      obtain ⟨-, hk, -, hrest⟩ := wfFrom_cons.1 hm
      obtain ⟨-, -, -, hrest'⟩ := wfFrom_cons.1 hm'
      obtain rfl : b = b' := by simpa only [read_cons_self] using hsame k hk
      have htail : ∀ a < 2 ^ 32, read rest a = read rest' a := by
        intro a ha
        by_cases h : a = k
        · subst h
          rw [read_eq_unlisted_of_lt hrest (Nat.lt_succ_self a), read_eq_unlisted_of_lt hrest' (Nat.lt_succ_self a)]
        · simpa only [read_cons_of_ne b _ h] using hsame a ha
      rw [ih hrest hrest' htail fun a ha => (htail a ha).symm]

end Memory

/-- Settles O29, from the lowest bound on. -/
theorem canonicalMemoriesAreEqual : Obligations.CanonicalMemoriesAreEqual := by
  refine fun m m' hm hm' hsame => Memory.eq_of_wfFrom hm hm' fun a ha => ?_
  simpa only [Memory.byte, BitVec.toNat_ofNat, Nat.mod_eq_of_lt ha] using hsame (BitVec.ofNat 32 a)

end Sys2Proof.Machine

/-! # Proofs: taking an exception and returning from it

An entry is stated field by field, and the return idiom read off the data-processing templates with the S bit and
destination r15, which reload the saved status. -/

namespace Sys2Proof.Machine

/-! ### Entry -/

@[simp] theorem get_spsr_writeSpsr (s : State) (p : Psr) (b : SpsrBank) :
    (s.writeSpsr p).spsr.get b = if spsrBank s.cpsr.m = some b then p else s.spsr.get b := by
  unfold State.writeSpsr
  cases spsrBank s.cpsr.m with
  | none => simp
  | some b' => simp [eq_comm]

/-- An exception other than reset saves the status and the link value before it branches (R471). -/
theorem takeException_of_ne_reset {e : ArchException} (s : State) (h : e ≠ .reset) :
    takeException e s =
      (((s.withCpsr (entryPsr e s.cpsr)).writeSpsr s.cpsr).setReg lr (e.link s.pc)).branch e.vector := by
  simp only [takeException, if_neg h]

theorem masksFiq_eq (e : ArchException) : e.masksFiq = decide (e = .reset ∨ e = .fiq) := by
  cases e <;> simp [ArchException.masksFiq]

/-- The vectors are multiples of 4, so that the branch in ARM state goes to the vector itself. -/
theorem vector_and_mask2 (e : ArchException) : e.vector &&& 0xFFFFFFFC#32 = e.vector := by
  cases e <;> simp [ArchException.vector]

theorem pc_takeException (e : ArchException) (s : State) : (takeException e s).pc = e.vector := by
  have harm : (entryPsr e s.cpsr).t = false := rfl
  unfold takeException
  split <;> simp [harm, vector_and_mask2]

section
variable {e : ArchException} (s : State) (h : e ≠ .reset)
include h

theorem get_spsr_takeException (b : SpsrBank) :
    (takeException e s).spsr.get b = if spsrBank e.mode = some b then s.cpsr else s.spsr.get b := by
  rw [takeException_of_ne_reset s h, State.spsr_branch, State.spsr_setReg, get_spsr_writeSpsr]
  rfl

theorem get_regs_takeException (p : PReg) :
    (takeException e s).regs.get p = if p = .s14 (bank13 e.mode) then e.link s.pc else s.regs.get p := by
  rw [takeException_of_ne_reset s h]
  simp [entryPsr, eq_comm]

end

/-- An entry changes the registers, the program counter and the status alone. -/
theorem takeException_frame (e : ArchException) (s : State) :
    takeException e s =
      { s with regs := (takeException e s).regs
               pc := (takeException e s).pc
               cpsr := (takeException e s).cpsr
               spsr := (takeException e s).spsr } := by
  refine State.eq_of_fields rfl rfl rfl rfl ?_ ?_ ?_ ?_ ?_
  all_goals
    unfold takeException
    split <;> simp

/-- Settles O31, field by field. -/
theorem exceptionEntry : Obligations.ExceptionEntry := by
  refine ⟨fun e s => ⟨?_, pc_takeException e s, ?_,
    fun h => ⟨get_spsr_takeException s h, get_regs_takeException s h⟩, takeException_frame e s⟩,
    fun p a => ⟨rfl, rfl, rfl, rfl, rfl, rfl, rfl⟩⟩
  · rw [cpsr_takeException, entryPsr, masksFiq_eq]
  · rintro rfl
    exact ⟨rfl, rfl⟩

/-! ### Return -/

/-- A subtraction without a borrow in. -/
theorem r_subFlags (a b : Word) : (subFlags a b true).r = a - b := by
  simp [subFlags_eq_addFlags_not, addFlags, BitVec.ofNat_add, BitVec.sub_eq_add_neg, BitVec.neg_eq_not_add,
    BitVec.add_assoc, -BitVec.toNat_not]

/-- The state in which the first instruction of the handler, a word at the vector, executes. -/
def handlerStart (e : ArchException) (s : State) : State := { takeException e s with pc := e.vector + 4#32 }

theorem mode_handlerStart (e : ArchException) (s : State) : (handlerStart e s).cpsr.m = e.mode :=
  congrArg Psr.m (cpsr_takeException e s)

/-- Every exception mode has a saved status register. -/
theorem spsrBank_mode (e : ArchException) : ∃ b, spsrBank e.mode = some b := by
  cases e <;> exact ⟨_, rfl⟩

/-- The state `t` resumes the interrupted program at `v`, with every register but the link register as it was. -/
def Resumes (e : ArchException) (s : State) (v : Word) (t : State) : Prop :=
  t.cpsr = s.cpsr ∧ t.pc = branchMask s.cpsr.t v ∧ ∀ p, p ≠ .s14 (bank13 e.mode) → t.regs.get p = s.regs.get p

section
variable {e : ArchException} (s : State) (h : e ≠ .reset)
include h

/-- In the handler r14 reads as the link value. -/
theorem reg_lr_handlerStart : (handlerStart e s).reg 14#4 = e.link s.pc := by
  have hphys : physReg (handlerStart e s).cpsr.m 14#4 = some (.s14 (bank13 e.mode)) := by
    rw [mode_handlerStart]
    exact physReg_lr _
  rw [reg_eq_get hphys]
  exact (get_regs_takeException s h _).trans (if_pos rfl)

/-- A data-processing instruction with the S bit and destination r15 reloads the interrupted status. -/
theorem statusAfter_handlerStart (flags : Psr) : statusAfter true 15#4 flags (handlerStart e s) = s.cpsr := by
  obtain ⟨b, hb⟩ := spsrBank_mode e
  have hsaved : (handlerStart e s).spsr.get b = s.cpsr := (get_spsr_takeException s h b).trans (if_pos hb)
  simp [statusAfter, mode_handlerStart, hb, hsaved]

theorem resumes_of_registersAfter {v : Word} {t : State} (hc : t.cpsr = s.cpsr)
    (hr : RegistersAfter [((handlerStart e s).phys 15#4, v)] s.cpsr.t (handlerStart e s) t) : Resumes e s v t := by
  have hphys : (handlerStart e s).phys 15#4 = none := physReg_pcReg _
  rw [hphys] at hr
  obtain ⟨hregs, hpc⟩ := hr
  exact ⟨hc, hpc, fun p hp => (hregs p).trans ((get_regs_takeException s h p).trans (if_neg hp))⟩

theorem resumes_dpLogical (v : Word) (sc : Bool) : Resumes e s v (dpLogical true 15#4 v sc (handlerStart e s)) := by
  obtain ⟨hr, ht⟩ := dpLogical_spec true 15#4 v sc (handlerStart e s)
  rw [statusAfter_handlerStart s h] at hr ht
  exact resumes_of_registersAfter s h (by rw [ht]) hr

theorem resumes_dpArith (f : Flagged) : Resumes e s f.r (dpArith true 15#4 f (handlerStart e s)) := by
  obtain ⟨hr, ht⟩ := dpArith_spec true 15#4 f (handlerStart e s)
  rw [statusAfter_handlerStart s h] at hr ht
  exact resumes_of_registersAfter s h (by rw [ht]) hr

/-- `MOVS pc, lr` goes to the link value. -/
theorem exec_movs_pc_lr {resume : Word} (hlink : e.link s.pc = resume) :
    ∃ t, exec (.movReg 14 true 0 15 0 .lsl 14) (handlerStart e s) = .next t ∧ Resumes e s resume t := by
  rw [← reg_lr_handlerStart s h] at hlink
  subst hlink
  exact ⟨dpLogical true 15#4 _ _ _, whenPassed_of_pass (c := 14) (s := handlerStart e s) rfl _,
    resumes_dpLogical s h _ _⟩

/-- `SUBS pc, lr, #imm` goes to the link value less `imm`. -/
theorem exec_subs_pc_lr (imm : BitVec 8) {resume : Word} (hlink : e.link s.pc = resume + imm.setWidth 32) :
    ∃ t, exec (.subImm 14 true 14 15 0 imm) (handlerStart e s) = .next t ∧ Resumes e s resume t := by
  have hr : (subFlags ((handlerStart e s).reg 14#4) (imm.setWidth 32) true).r = resume := by
    rw [reg_lr_handlerStart s h, hlink, r_subFlags, BitVec.add_sub_cancel]
  exact ⟨dpArith true 15#4 _ _, whenPassed_of_pass (c := 14) (s := handlerStart e s) rfl _,
    hr ▸ resumes_dpArith s h _⟩

end

/-- Settles O32: each idiom subtracts what the link value adds to the address to resume at. -/
theorem returnUndoesEntry : Obligations.ReturnUndoesEntry := by
  intro e s i resume hi
  suffices h : ∃ t, exec i (handlerStart e s) = .next t ∧ Resumes e s resume t from h
  cases e with
  | reset => exact hi.elim
  | undefined | softwareInterrupt =>
    obtain ⟨rfl, rfl⟩ := hi
    exact exec_movs_pc_lr s (by simp) rfl
  | irq | fiq | prefetchAbort a | dataAbort a =>
    obtain ⟨rfl, rfl⟩ := hi
    exact exec_subs_pc_lr s (by simp) _ rfl

end Sys2Proof.Machine

/-! # Proofs: reset, and words of the spec

The state after reset is a closed term, so that its fields and its first step are evaluated. -/

namespace Sys2Proof.Machine

/-- The first step after reset: memory lists nothing, and the word 0 is an AND under EQ, whose condition fails. -/
theorem step_reset : step State.reset = .next (advance State.reset) := rfl

/-- Settles O14: the fields of the reset state, and its first step. -/
theorem resetEntersSupervisorAtResetPc : Obligations.ResetEntersSupervisorAtResetPc :=
  ⟨rfl, rfl, rfl, rfl, rfl, rfl, _, step_reset, List.mem_singleton_self _⟩

/-- Settles O15: what a reset leaves depends on the parameters and the number of resets alone. -/
theorem hostResetSetsDefinedFieldsOnly : Obligations.HostResetSetsDefinedFieldsOnly := by
  refine fun s s' => ⟨rfl, rfl, rfl, rfl, rfl, rfl, rfl, rfl, rfl, fun h => ?_⟩
  unfold hostReset
  rw [h]
  exact ⟨rfl, rfl, rfl⟩

/-- Settles O17: the reset address is 0, and the service is the architecture's entry. -/
theorem resetMeetsTheInvariants : Obligations.ResetMeetsTheInvariants :=
  ⟨rfl, rfl, rfl, rfl, by decide, fun _ => List.not_mem_nil⟩

/-- Settles O1, word by word. -/
theorem specWordsDecode : Obligations.SpecWordsDecode :=
  ⟨rfl, rfl, rfl, rfl, rfl, rfl, rfl, rfl, rfl, rfl, rfl, rfl, rfl, rfl⟩

end Sys2Proof.Machine
